-- ==== Sys2Proof/Word.lean ====
section
/-! DEFINITION. The word types of the command port, the framebuffer and the glyph store (R12, R13, R70). -/

namespace Sys2Proof

/-- A framebuffer byte, a text byte, a coordinate, a character code or a command byte (R12, R13). -/
abbrev Byte := BitVec 8

/-- A glyph row, an index operand or the data of a response (R12, R24). -/
abbrev Half := BitVec 16

/-- A command word (R70). -/
abbrev Word := BitVec 32

end Sys2Proof
end

