-- ==== Sys2Proof/Syntax.lean ====
section
/-! DEFINITION. The fifteen commands of the command port (R77, spec/opcode_table.json) and their operands (R72 to R76).
Every operand has exactly the values the encoding gives it, so each term of `Instr` is a legal command: the values that
R76 and R78 call illegal (fonts 5 to 7, reserved bits, opcode 0) cannot be written as an `Instr`, and `decode` refuses
the words that hold them. -/

namespace Sys2Proof

/-- A colour is one bit: White = 1 and Black = 0 (R15). -/
inductive Color where
  | black
  | white
deriving DecidableEq, Repr

/-- The five fonts, numbered f = 0..4 in this order (R10, R76). -/
inductive Font where
  | f5x5
  | f5x7
  | f7x10
  | f11x18
  | f16x26
deriving DecidableEq, Repr

/-- The commands, one constructor per row of the opcode table (R77). Operand names are those of R72 and R73: `x`, `y`
coordinates, `c` foreground or pixel colour, `b` background colour, `p` padding, `u` update, `f` font, `ch` character,
`idx` index. -/
inductive Instr where
  | drawPixel (x y : Byte) (c : Color)
  | fill (c : Color)
  | setCursor (x y : Byte)
  | writeChar (ch : Byte) (f : Font) (c : Color) (p : Bool)
  | textClear
  | textPush (ch : Byte)
  | writeString (f : Font) (c : Color) (p : Bool)
  | write (f : Font) (x y : Byte) (b c : Color) (p u : Bool)
  | flush
  | init
  | fbRead (idx : Half)
  | glyphRead (f : Font) (idx : Half)
  | cursorRead
  | statusRead
  | irqAck
deriving DecidableEq, Repr

end Sys2Proof
end

