-- ==== Sys2Proof/Config.lean ====
section
/-! DEFINITION. What is fixed when the block is built (R9 to R11, R32): the display's geometry, the fonts' sizes, the
straps and parameters with their defaults; and the opaque values nothing in the spec gives. -/

namespace Sys2Proof

/-- `W`, the display's columns (R9). -/
abbrev displayWidth : Nat := 128

/-- `H`, the display's rows (R9). -/
abbrev displayHeight : Nat := 64

/-- `PAGES = H / 8` (R9). -/
abbrev displayPages : Nat := 8

/-- `FB_BYTES = W * H / 8` (R9). -/
abbrev fbBytes : Nat := 1024

/-- `FW(f)`, a font's width in columns (R10). -/
def Font.width : Font → Nat
  | .f5x5 => 5
  | .f5x7 => 5
  | .f7x10 => 7
  | .f11x18 => 11
  | .f16x26 => 16

/-- `FH(f)`, a font's height in rows (R10). -/
def Font.height : Font → Nat
  | .f5x5 => 5
  | .f5x7 => 7
  | .f7x10 => 10
  | .f11x18 => 18
  | .f16x26 => 26

/-- `FIT_CHECK` (R11, R141). -/
inductive FitCheck where
  | observed
  | intended
deriving DecidableEq, Repr

/-- `OVERFLOW_RESULT` (R11, R142). -/
inductive OverflowResult where
  | lineOverflow
  | noOpSuccess
deriving DecidableEq, Repr

/-- `DRAW_OOB` (R11, R112). -/
inductive DrawOob where
  | fail
  | ignore
deriving DecidableEq, Repr

/-- The configuration parameters of R11, but for the glyph tables, which R23 counts as state and `GlyphStore` holds.
No command writes them. -/
structure Config where
  fitCheck : FitCheck
  overflowResult : OverflowResult
  drawOob : DrawOob
  padDouble : Bool
  burstMode : Bool
  burstFailAdmitted : Bool
  initResetPulse : Bool
  /-- `TEXT_MAX`, 1..511. -/
  textMax : Nat
  initScriptPage : List Byte
  initScriptHoriz : List Byte
  cmdPageBase : Byte
  cmdColLow : Byte
  cmdColHigh : Byte
  dcLevelCmd : Bool
  dcLevelData : Bool
  /-- `POLL_BUDGET`, unobservable (R174). -/
  pollBudget : Nat
deriving DecidableEq, Repr

/-- `INIT_SCRIPT_PAGE` at State.reset: OPEN in R11, so a list nothing can evaluate (log 7, DESIGN CHOICE). -/
opaque Config.openScriptPage : List Byte

/-- `INIT_SCRIPT_HORIZ` at State.reset: OPEN in R11, so a list nothing can evaluate (log 7, DESIGN CHOICE). -/
opaque Config.openScriptHoriz : List Byte

/-- The rows of the glyph tables at State.reset: OPEN in R11, so words nothing can evaluate (log 6, DESIGN CHOICE). -/
opaque Config.openGlyphRow : Font → Nat → Half

/-- FREE VALUE: the transport's n-th answer that `State.answers` does not fix (R172, R173; log 2, DESIGN CHOICE). -/
opaque Config.freeAnswer : Nat → Bool

/-- FREE VALUE: whether the burst engine takes its step at its n-th turn that `State.inputs` does not fix, while
BURST_FAIL_ADMITTED allows it to hang (R190, R191; log 3, DESIGN CHOICE). -/
opaque Config.engineCompletes : Nat → Bool

/-- The parameters at the defaults of R11; the two scripts, which R11 leaves OPEN, are opaque. The poll budget 1 is a
DESIGN CHOICE (log 9): R11 gives none and nothing observes it. -/
def Config.default : Config where
  fitCheck := .observed
  overflowResult := .lineOverflow
  drawOob := .fail
  padDouble := false
  burstMode := false
  burstFailAdmitted := true
  initResetPulse := true
  textMax := 256
  initScriptPage := Config.openScriptPage
  initScriptHoriz := Config.openScriptHoriz
  cmdPageBase := 0xB0#8
  cmdColLow := 0x00#8
  cmdColHigh := 0x10#8
  dcLevelCmd := false
  dcLevelData := true
  pollBudget := 1

/-- `GLYPH(f)` for f = 0..4 (R23): five tables of 16-bit rows. `GLYPH_LEN(f)` is the length of the table. -/
structure GlyphStore where
  t5x5 : List Half
  t5x7 : List Half
  t7x10 : List Half
  t11x18 : List Half
  t16x26 : List Half
deriving DecidableEq, Repr

/-- A row of the glyph tables at State.reset: the one value the source states, row 0 of the 5x7 font (R105), and an opaque
word for every other row (log 6). -/
def GlyphStore.openRow (f : Font) (idx : Nat) : Half :=
  match f, idx with
  | .f5x7, 0 => 0x0000#16
  | f, idx => Config.openGlyphRow f idx

/-- A table of the default length `95 * FH(f)` (R11, R100; log 6). -/
def GlyphStore.openTable (f : Font) : List Half :=
  (List.range (95 * f.height)).map (GlyphStore.openRow f)

/-- The glyph store at State.reset (log 6). -/
def GlyphStore.default : GlyphStore where
  t5x5 := GlyphStore.openTable .f5x5
  t5x7 := GlyphStore.openTable .f5x7
  t7x10 := GlyphStore.openTable .f7x10
  t11x18 := GlyphStore.openTable .f11x18
  t16x26 := GlyphStore.openTable .f16x26

end Sys2Proof
end

