-- ==== Sys2Proof/WellFormed.lean ====
section
/-! DEFINITION. What the spec requires of a command word (R77, R78) and of a configuration (R11, R175). Every term of
`Instr` is legal by its type; the checks that can fail are those on raw words and on configurations. -/

namespace Sys2Proof

/-- One row of the opcode map (R77): a word selects it when `word & mask = pattern`. `usesFont` marks the four commands
whose font field must name a font (R76). -/
structure OpcodeRow where
  mnemonic : String
  pattern : Word
  mask : Word
  usesFont : Bool
deriving DecidableEq, Repr

/-- The opcode map of R77, as spec/opcode_table.json lists it. -/
def opcodeMap : List OpcodeRow :=
  [ ⟨"DRAW_PIXEL", 0x00000001#32, 0x0000FFEF#32, false⟩,
    ⟨"FILL", 0x00000002#32, 0xFFFFFFEF#32, false⟩,
    ⟨"SET_CURSOR", 0x00000003#32, 0x0000FFFF#32, false⟩,
    ⟨"WRITE_CHAR", 0x00000004#32, 0xFF00F8AF#32, true⟩,
    ⟨"TEXT_CLEAR", 0x00000005#32, 0xFFFFFFFF#32, false⟩,
    ⟨"TEXT_PUSH", 0x00000006#32, 0xFF00FFFF#32, false⟩,
    ⟨"WRITE_STRING", 0x00000007#32, 0xFFFFF8AF#32, true⟩,
    ⟨"WRITE", 0x00000008#32, 0x0000F80F#32, true⟩,
    ⟨"FLUSH", 0x00000009#32, 0xFFFFFFFF#32, false⟩,
    ⟨"INIT", 0x0000000A#32, 0xFFFFFFFF#32, false⟩,
    ⟨"FB_READ", 0x0000000B#32, 0x0000FFFF#32, false⟩,
    ⟨"GLYPH_READ", 0x0000000C#32, 0x0000F8FF#32, true⟩,
    ⟨"CURSOR_READ", 0x0000000D#32, 0xFFFFFFFF#32, false⟩,
    ⟨"STATUS_READ", 0x0000000E#32, 0xFFFFFFFF#32, false⟩,
    ⟨"IRQ_ACK", 0x0000000F#32, 0xFFFFFFFF#32, false⟩ ]

/-- A word selects a row when its fixed bits are the row's (R77). -/
def OpcodeRow.selects (r : OpcodeRow) (w : Word) : Bool :=
  (w &&& r.mask) == r.pattern

/-- Bits [10:8] name a font: 0..4 (R76). -/
def fontFieldLegal (w : Word) : Bool :=
  decide ((w.extractLsb' 8 3).toNat < 5)

/-- A word is legal when it selects a row and, in a command that uses `f`, its font field names a font (R76 to R79). -/
def legalWord (w : Word) : Bool :=
  opcodeMap.any fun r => r.selects w && (!r.usesFont || fontFieldLegal w)

/-- `TEXT_MAX` is a natural number in 1..511 (R11). -/
def Config.textMaxOk (c : Config) : Bool :=
  decide (1 ≤ c.textMax) && decide (c.textMax ≤ 511)

/-- `CMD_PAGE_BASE` has its low 3 bits zero, so that the OR with a page number never carries into the base (R175). -/
def Config.pageBaseOk (c : Config) : Bool :=
  (c.cmdPageBase &&& 0x07#8) == 0#8

/-- The requirements R11 and R175 put on the straps and parameters. -/
def Config.wellFormed (c : Config) : Bool :=
  c.textMaxOk && c.pageBaseOk

/-- The table of a font (R23). -/
def GlyphStore.table (g : GlyphStore) : Font → List Half
  | .f5x5 => g.t5x5
  | .f5x7 => g.t5x7
  | .f7x10 => g.t7x10
  | .f11x18 => g.t11x18
  | .f16x26 => g.t16x26

/-- `GLYPH_LEN(f)` is at least `95 * FH(f)` for one font (R11). -/
def GlyphStore.tableOk (g : GlyphStore) (f : Font) : Bool :=
  decide (95 * f.height ≤ (g.table f).length)

/-- `GLYPH_LEN(f)` is at least `95 * FH(f)` for every font (R11). -/
def GlyphStore.wellFormed (g : GlyphStore) : Bool :=
  g.tableOk .f5x5 && g.tableOk .f5x7 && g.tableOk .f7x10 && g.tableOk .f11x18 && g.tableOk .f16x26

/-- What a store that claims to hold the repository's fonts must hold: row 0 of the 5x7 font is 0x0000 (R105). -/
def GlyphStore.claimsRepository (g : GlyphStore) : Bool :=
  g.t5x7[0]? == some 0x0000#16

end Sys2Proof
end

