-- ==== Sys2Proof/Decode.lean ====
section
/-! DEFINITION. Decoding a command word (R72 to R78), total on the 2^32 words and rejecting by name, and the encoder
written from the bit patterns of R77. -/

namespace Sys2Proof

/-- Why a word is illegal, in the order R78 checks. Each gives the response `IllegalCommand`. -/
inductive Illegal where
  /-- R78 check 2: the opcode is 0. -/
  | opcodeZero
  /-- R78 check 3: a must-be-zero bit is set. -/
  | reservedBitSet
  /-- R78 check 4: the command uses `f` and `f >= 5`. -/
  | noSuchFont
deriving DecidableEq, Repr

/-- What decoding a word gives. -/
inductive Decoded where
  | instr (i : Instr)
  | illegal (why : Illegal)
deriving DecidableEq, Repr

/-- `op = word[3:0]` (R72). -/
def opField (w : Word) : BitVec 4 := w.extractLsb' 0 4

/-- `x = word[23:16]` (R74). -/
def xField (w : Word) : Byte := w.extractLsb' 16 8

/-- `y = word[31:24]` (R74). -/
def yField (w : Word) : Byte := w.extractLsb' 24 8

/-- `ch = word[23:16]` (R74). -/
def chField (w : Word) : Byte := w.extractLsb' 16 8

/-- `idx = word[31:16]` (R74). -/
def idxField (w : Word) : Half := w.extractLsb' 16 16

/-- A colour bit: 1 = White (R15, R75). -/
def Color.ofBool : Bool → Color
  | true => .white
  | false => .black

/-- `c = word[4]` (R72, R74). -/
def cField (w : Word) : Color := Color.ofBool (w.getLsbD 4)

/-- `b = word[5]` (R72, R74). -/
def bField (w : Word) : Color := Color.ofBool (w.getLsbD 5)

/-- `p = word[6]` (R72, R74). -/
def pField (w : Word) : Bool := w.getLsbD 6

/-- `u = word[7]` (R72, R74). -/
def uField (w : Word) : Bool := w.getLsbD 7

/-- `f = word[10:8]` (R72, R74). -/
def fField (w : Word) : BitVec 3 := w.extractLsb' 8 3

/-- The font a 3-bit number names; 5, 6 and 7 name none (R76). -/
def Font.ofNumber (n : BitVec 3) : Option Font :=
  match n.toNat with
  | 0 => some .f5x5
  | 1 => some .f5x7
  | 2 => some .f7x10
  | 3 => some .f11x18
  | 4 => some .f16x26
  | _ => none

/-- `mask(op)` of the opcode map (R77): the bits of a word that are fixed. -/
def maskOf (op : BitVec 4) : Word :=
  match op.toNat with
  | 0x1 => 0x0000FFEF#32
  | 0x2 => 0xFFFFFFEF#32
  | 0x3 => 0x0000FFFF#32
  | 0x4 => 0xFF00F8AF#32
  | 0x5 => 0xFFFFFFFF#32
  | 0x6 => 0xFF00FFFF#32
  | 0x7 => 0xFFFFF8AF#32
  | 0x8 => 0x0000F80F#32
  | 0x9 => 0xFFFFFFFF#32
  | 0xA => 0xFFFFFFFF#32
  | 0xB => 0x0000FFFF#32
  | 0xC => 0x0000F8FF#32
  | _ => 0xFFFFFFFF#32

/-- `match(op)` of the opcode map (R77): every fixed bit above the opcode is 0. -/
def matchOf (op : BitVec 4) : Word := op.setWidth 32

/-- A font command: its operands need the font its field names (R78 check 4). -/
def withFont (w : Word) (k : Font → Instr) : Decoded :=
  match Font.ofNumber (fField w) with
  | some f => .instr (k f)
  | none => .illegal .noSuchFont

/-- The command of a word whose fixed bits are right, by its opcode (R77, operands by R74). -/
def decodeOperands (w : Word) : Decoded :=
  match (opField w).toNat with
  | 0x1 => .instr (.drawPixel (xField w) (yField w) (cField w))
  | 0x2 => .instr (.fill (cField w))
  | 0x3 => .instr (.setCursor (xField w) (yField w))
  | 0x4 => withFont w fun f => .writeChar (chField w) f (cField w) (pField w)
  | 0x5 => .instr .textClear
  | 0x6 => .instr (.textPush (chField w))
  | 0x7 => withFont w fun f => .writeString f (cField w) (pField w)
  | 0x8 => withFont w fun f => .write f (xField w) (yField w) (bField w) (cField w) (pField w) (uField w)
  | 0x9 => .instr .flush
  | 0xA => .instr .init
  | 0xB => .instr (.fbRead (idxField w))
  | 0xC => withFont w fun f => .glyphRead f (idxField w)
  | 0xD => .instr .cursorRead
  | 0xE => .instr .statusRead
  | 0xF => .instr .irqAck
  | _ => .illegal .opcodeZero

/-- Decode one command word, with the checks of R78 in their order (its check 1, the fault state, stands in `takeAction`). -/
def decode (w : Word) : Decoded :=
  if opField w = 0#4 then .illegal .opcodeZero
  else if w &&& maskOf (opField w) = matchOf (opField w) then decodeOperands w
  else .illegal .reservedBitSet

/-- The instruction the decoder reads from an opcode-table word of `nbits` bits: a command is one 32-bit word (R70), and
the bits above `nbits` are 0. -/
def decodeTableWord (nbits w : Nat) : Option Instr :=
  match decode (BitVec.ofNat 32 (w % 2 ^ nbits)) with
  | .instr i => some i
  | .illegal _ => none

/-- The bit of a colour (R15). -/
def Color.bit : Color → BitVec 1
  | .white => 1#1
  | .black => 0#1

/-- The number of a font (R76). -/
def Font.number : Font → BitVec 3
  | .f5x5 => 0#3
  | .f5x7 => 1#3
  | .f7x10 => 2#3
  | .f11x18 => 3#3
  | .f16x26 => 4#3

/-- The opcode of a command (R77). -/
def Instr.opcode : Instr → BitVec 4
  | .drawPixel _ _ _ => 0x1#4
  | .fill _ => 0x2#4
  | .setCursor _ _ => 0x3#4
  | .writeChar _ _ _ _ => 0x4#4
  | .textClear => 0x5#4
  | .textPush _ => 0x6#4
  | .writeString _ _ _ => 0x7#4
  | .write _ _ _ _ _ _ _ => 0x8#4
  | .flush => 0x9#4
  | .init => 0xA#4
  | .fbRead _ => 0xB#4
  | .glyphRead _ _ => 0xC#4
  | .cursorRead => 0xD#4
  | .statusRead => 0xE#4
  | .irqAck => 0xF#4

/-- A field of a command word with its lowest bit at `lo` (R72). -/
def atBit {n : Nat} (lo : Nat) (v : BitVec n) : Word := v.setWidth 32 <<< lo

/-- The word of a command: its opcode in bits [3:0] and its operands in their fields, every other bit 0 (R72 to R77). -/
def encode (i : Instr) : Word :=
  match i with
  | .drawPixel x y c => atBit 24 y ||| atBit 16 x ||| atBit 4 c.bit ||| 0x1#32
  | .fill c => atBit 4 c.bit ||| 0x2#32
  | .setCursor x y => atBit 24 y ||| atBit 16 x ||| 0x3#32
  | .writeChar ch f c p => atBit 16 ch ||| atBit 8 f.number ||| atBit 6 (BitVec.ofBool p) ||| atBit 4 c.bit ||| 0x4#32
  | .textClear => 0x5#32
  | .textPush ch => atBit 16 ch ||| 0x6#32
  | .writeString f c p => atBit 8 f.number ||| atBit 6 (BitVec.ofBool p) ||| atBit 4 c.bit ||| 0x7#32
  | .write f x y b c p u =>
      atBit 24 y ||| atBit 16 x ||| atBit 8 f.number ||| atBit 7 (BitVec.ofBool u) ||| atBit 6 (BitVec.ofBool p) |||
        atBit 5 b.bit ||| atBit 4 c.bit ||| 0x8#32
  | .flush => 0x9#32
  | .init => 0xA#32
  | .fbRead idx => atBit 16 idx ||| 0xB#32
  | .glyphRead f idx => atBit 16 idx ||| atBit 8 f.number ||| 0xC#32
  | .cursorRead => 0xD#32
  | .statusRead => 0xE#32
  | .irqAck => 0xF#32

end Sys2Proof
end

