-- ==== Sys2Proof/Machine/State.lean ====
section
/-! DEFINITION. The state of the block (R20 to R29), the environment's next actions and answers, the reasons a step can
stop, and the state after reset (R34, R240). -/

namespace Sys2Proof.Machine

/-- A byte memory: (address, byte) cells with strictly rising addresses and no cell that holds 0x00, which is what an
address without a cell reads as (R34: the framebuffer is zero after reset). -/
abbrev Memory := List Host.Cell

/-- The status codes of R81. Codes 10 to 15 are never written and have no name here. -/
inductive Status where
  | ok
  | cursorOutOfBounds
  | pixelOutOfBounds
  | lineOverflow
  | pageAddressError
  | columnAddressError
  | dataTransmitError
  | unknownError
  | illegalCommand
  | operandOutOfRange
deriving DecidableEq, Repr

/-- `RESP`: the response to the most recent command (R24). -/
structure Resp where
  status : Status
  data : Half
deriving DecidableEq, Repr

/-- The two fault reasons of R215. -/
inductive FaultReason where
  /-- A framebuffer write was attempted while `BURST_BUSY = 1` (R113, R244). -/
  | fbWriteDuringBurst
  /-- A command byte, a data burst or an `INIT` was attempted while `BURST_BUSY = 1` (R172, R173, R180, R245). -/
  | transferDuringBurst
deriving DecidableEq, Repr

/-- The two modes of the command/data line (R170, R171). -/
inductive LineMode where
  | cmd
  | data
deriving DecidableEq, Repr

/-- The interface events of R170. No other event exists. -/
inductive Event where
  /-- The command/data line was driven to a mode. -/
  | dc (m : LineMode)
  /-- The reset line was driven to level `v`. -/
  | rst (v : Bool)
  /-- Command byte `b` was offered to the transport, which answered `ok`. -/
  | cmd (b : Byte) (ok : Bool)
  /-- A data burst of `len` bytes from offset `off` was offered, with these bytes and this answer. -/
  | data (off len : Nat) (bytes : List Byte) (ok : Bool)
  /-- The burst engine completed an in-flight whole-buffer transfer. -/
  | burstDone
deriving DecidableEq, Repr

/-- One action of the environment on the block (R17; log 1). -/
inductive Input where
  /-- The host presents a command word on the command port (R70, R71). -/
  | command (w : Word)
  /-- The burst engine's turn between two commands (R190). -/
  | engine
  /-- The reset input is asserted (R240). -/
  | reset
deriving DecidableEq, Repr

/-- The state of one block. The fields down to `cfg` are the spec's; the last four are the model's own. -/
structure State where
  /-- `FB` (R20). -/
  fb : Memory
  /-- `CX` (R21). -/
  cx : Byte
  /-- `CY` (R21). -/
  cy : Byte
  /-- `TEXT` (R22). -/
  text : Memory
  /-- `TLEN` (R22). -/
  tlen : BitVec 9
  /-- `GLYPH(f)` (R23). -/
  glyph : GlyphStore
  /-- `RESP` (R24). -/
  resp : Resp
  /-- `IRQF0` (R25). -/
  irqf0 : Bool
  /-- `IRQF1` (R25). -/
  irqf1 : Bool
  /-- `BURST_BUSY` (R26). -/
  burstBusy : Bool
  /-- `FAULT` (R27). -/
  fault : Option FaultReason
  /-- `DC`, the level last driven on the command/data line (R28). -/
  dc : Bool
  /-- `RST`, the level last driven on the reset line (R28). -/
  rst : Bool
  /-- `TRACE`, oldest event first (R29). -/
  trace : List Event
  /-- The configuration parameters, constant for the life of the block (R11, R32; log 8). -/
  cfg : Config
  /-- The environment's next actions, in order (log 1). -/
  inputs : List Input
  /-- The transport's next answers, in order (R172, R173; log 2). -/
  answers : List Bool
  /-- How many answers were taken from `Config.freeAnswer` (log 2). -/
  draws : Nat
  /-- How many engine turns were decided by `Config.engineCompletes` (log 3). -/
  engineTurns : Nat
deriving DecidableEq, Repr

/-- Why the machine stops. -/
inductive Fault where
  /-- Raised by `step` alone: FAULT is set and the environment has no action left, so no agent of the block takes a step,
  and the run has failed (R78 check 1, R216; log 10). Safe: the spec gives no step here. -/
  | blockFaulted (r : FaultReason)
deriving DecidableEq, Repr

/-- Why the model gives an instruction no meaning. -/
inductive Refusal where
  /-- Raised by `exec` for a command without a meaning; no command is without one. Safe. -/
  | notModelled (mnemonic : String)
deriving DecidableEq, Repr

/-- The state right after reset: R34 and R240 for every field but these. `text`, `dc` and `rst` are unspecified there
and take the named values of logs 4 and 5; `glyph` and `cfg` are parameters (logs 6 to 9); `inputs`, `answers`, `draws`
and `engineTurns` are the model's own (logs 1 to 3). -/
def State.reset : State where
  fb := []
  cx := 0#8
  cy := 0#8
  text := []
  tlen := 0#9
  glyph := GlyphStore.default
  resp := ⟨.ok, 0#16⟩
  irqf0 := false
  irqf1 := false
  burstBusy := false
  fault := none
  dc := false
  rst := false
  trace := []
  cfg := Config.default
  inputs := []
  answers := []
  draws := 0
  engineTurns := 0

end Sys2Proof.Machine
end

