-- ==== Sys2Proof/Machine/Operands.lean ====
section
/-! DEFINITION. The addresses, indices and colours the commands compute from their operands (R15, R51 to R53, R100 to
R102, R110 to R112, R141 to R146, R175). All arithmetic is over the naturals or the integers, without wrap (R12). -/

namespace Sys2Proof.Machine

/-- `InBounds(x, y)` (R111). -/
def inBounds (x y : Nat) : Bool :=
  decide (x < displayWidth) && decide (y < displayHeight)

/-- `PixelByte(x, y) = x + (y div 8) * W` (R51, R110). -/
def pixelByte (x y : Nat) : Nat := x + y / 8 * displayWidth

/-- `PixelBit(y) = y mod 8` (R51, R110). -/
def pixelBit (y : Nat) : Nat := y % 8

/-- `¬c`, the other colour (R15). -/
def otherColor : Color → Color
  | .white => .black
  | .black => .white

/-- Whether a colour sets its bit: White sets, Black clears (R15, R51). -/
def isWhite : Color → Bool
  | .white => true
  | .black => false

/-- The byte with one bit set or cleared and no other bit changed (R112). -/
def paintBit (v : Byte) (n : Nat) (c : Color) : Byte :=
  match c with
  | .white => v ||| (1#8 <<< n)
  | .black => v &&& ~~~(1#8 <<< n)

/-- The byte a fill writes: 0xFF for White, 0x00 for Black (R115). -/
def fillByte : Color → Byte
  | .white => 0xFF#8
  | .black => 0x00#8

/-- `GlyphIndex(f, ch, r) = (ch - 32) * FH(f) + r`, over the integers (R102). -/
def glyphIndex (f : Font) (ch : Byte) (r : Nat) : Int :=
  ((ch.toNat : Int) - 32) * (f.height : Int) + (r : Int)

/-- `GLYPH_LEN(f)` (R11, R100). -/
def glyphLen (g : GlyphStore) (f : Font) : Nat := (g.table f).length

/-- `GlyphRow(f, idx)`: the row, or nothing where the index is out of range (R100). -/
def glyphRow (g : GlyphStore) (f : Font) (idx : Int) : Option Half :=
  if idx < 0 ∨ (glyphLen g f : Int) ≤ idx then none
  else (g.table f)[idx.toNat]?

/-- Glyph column `j` of a row, by the source's test `((row << j) & 0x8000) != 0` (R53, R140, R144). -/
def glyphBit (row : Half) (j : Nat) : Bool :=
  ((row <<< j) &&& 0x8000#16) != 0#16

/-- The colour of a glyph cell: `c` where the bit is set and `¬c` where it is clear (R144). -/
def cellColor (bit : Bool) (c : Color) : Color :=
  if bit then c else otherColor c

/-- `Fits(f)` on a cursor, under either form of the check (R141). -/
def fits (k : FitCheck) (cx cy : Nat) (f : Font) : Bool :=
  match k with
  | .observed => !(decide (displayWidth ≤ cx + f.height) || decide (displayWidth ≤ cy + f.height))
  | .intended => !(decide (displayWidth ≤ cx + f.width) || decide (displayHeight ≤ cy + f.height))

/-- The cells of the padding column: column `cx`, rows `cy .. cy + FH(f) - 1`, top to bottom, in `¬c` (R143). -/
def paddingCells (f : Font) (c : Color) (cx cy : Nat) : List (Nat × Nat × Color) :=
  (List.range f.height).map fun r => (cx, cy + r, otherColor c)

/-- The cells of glyph row `r`: `(cx + j, cy + r)` for `j = 0 .. FW(f) - 1`, left to right (R144, R145). -/
def rowCells (f : Font) (c : Color) (cx cy r : Nat) (row : Half) : List (Nat × Nat × Color) :=
  (List.range f.width).map fun j => (cx + j, cy + r, cellColor (glyphBit row j) c)

/-- The step-4 advance of the cursor: `FW(f)`, and 1 more with padding under PAD_DOUBLE (R146). -/
def advanceWidth (cfg : Config) (f : Font) (p : Bool) : Nat :=
  f.width + (if p && cfg.padDouble then 1 else 0)

/-- `PAGE_SEL(p) = CMD_PAGE_BASE | p` (R175). -/
def pageSelect (cfg : Config) (p : Nat) : Byte := cfg.cmdPageBase ||| BitVec.ofNat 8 p

/-- The initialization script of the mode: INIT_SCRIPT_HORIZ in burst mode, else INIT_SCRIPT_PAGE (R180, R181). -/
def initScript (cfg : Config) : List Byte :=
  if cfg.burstMode then cfg.initScriptHoriz else cfg.initScriptPage

end Sys2Proof.Machine
end

