-- ==== Sys2Proof/Machine/Flags.lean ====
section
/-! DEFINITION. The status codes' numbers, the packed response data, the status word and the interrupt line (R81, R85,
R131, R142, R184, R219). -/

namespace Sys2Proof.Machine

/-- The 4-bit number of a status (R81). -/
def Status.code : Status → BitVec 4
  | .ok => 0#4
  | .cursorOutOfBounds => 1#4
  | .pixelOutOfBounds => 2#4
  | .lineOverflow => 3#4
  | .pageAddressError => 4#4
  | .columnAddressError => 5#4
  | .dataTransmitError => 6#4
  | .unknownError => 7#4
  | .illegalCommand => 8#4
  | .operandOutOfRange => 9#4

/-- `zext_16` of a byte (R13, R85). -/
def zext16 (v : Byte) : Half := v.setWidth 16

/-- `(OK, 0x0000)`: success without data (R85). -/
def okResp : Resp := ⟨.ok, 0#16⟩

/-- A failing command records only its status: its data is 0x0000 (R85, R210). -/
def failResp (st : Status) : Resp := ⟨st, 0#16⟩

/-- Success with data (R85). -/
def dataResp (d : Half) : Resp := ⟨.ok, d⟩

/-- The response when the fit check rejects a character, by OVERFLOW_RESULT (R142). -/
def overflowResp : OverflowResult → Resp
  | .lineOverflow => failResp .lineOverflow
  | .noOpSuccess => okResp

/-- `{CY, CX}`, the data of CURSOR_READ (R131). -/
def cursorData (s : State) : Half := (s.cy.setWidth 16 <<< 8) ||| s.cx.setWidth 16

/-- The status word `{0000, BURST_BUSY, IRQF1, IRQF0, TLEN[8:0]}` (R184). -/
def statusWord (s : State) : Half :=
  ((BitVec.ofBool s.burstBusy).setWidth 16 <<< 11) ||| ((BitVec.ofBool s.irqf1).setWidth 16 <<< 10) |||
    ((BitVec.ofBool s.irqf0).setWidth 16 <<< 9) ||| s.tlen.setWidth 16

/-- The interrupt request output `IRQ = IRQF0 | IRQF1` (R25, R219). -/
def irqLine (s : State) : Bool := s.irqf0 || s.irqf1

end Sys2Proof.Machine
end

