-- ==== Sys2Proof/Machine/Ops.lean ====
section
/-! DEFINITION. The named operations over memory and state that every command is written with: memory cells, the field
updates, the transport's draws, FBWrite and PutPixel, the transfers, raising a fault and its only cure, reset. -/

namespace Sys2Proof.Machine

/-! ## Byte memories -/

/-- The byte at an address; an address without a cell reads 0x00. -/
def Memory.read (m : Memory) (a : Nat) : Byte :=
  match m with
  | [] => 0#8
  | (k, w) :: rest => if k = a then w else Memory.read rest a

/-- Write one byte, keeping the canonical form: writing 0x00 removes the cell. -/
def Memory.write (m : Memory) (a : Nat) (v : Byte) : Memory :=
  match m with
  | [] => if v = 0#8 then [] else [(a, v)]
  | (k, w) :: rest =>
    if a < k then (if v = 0#8 then (k, w) :: rest else (a, v) :: (k, w) :: rest)
    else if a = k then (if v = 0#8 then rest else (a, v) :: rest)
    else (k, w) :: Memory.write rest a v

/-- The canonical form above a bound: every address is at least `lo` and below `hi`, addresses rise strictly, and no
cell holds 0x00. -/
def Memory.wfFrom (lo hi : Nat) (m : Memory) : Bool :=
  match m with
  | [] => true
  | (k, w) :: rest => decide (lo ≤ k) && decide (k < hi) && (w != 0#8) && Memory.wfFrom (k + 1) hi rest

/-- The canonical form of a memory of `size` bytes. -/
def Memory.wf (size : Nat) (m : Memory) : Bool := Memory.wfFrom 0 size m

/-- The bytes at `off .. off + len - 1`, in ascending order (R54). -/
def Memory.slice (m : Memory) (off len : Nat) : List Byte :=
  (List.range len).map fun k => Memory.read m (off + k)

/-! ## Field updates -/

def State.setFb (s : State) (m : Memory) : State := { s with fb := m }

def State.setCx (s : State) (v : Byte) : State := { s with cx := v }

def State.setCursor (s : State) (x y : Byte) : State := { s with cx := x, cy := y }

def State.setText (s : State) (m : Memory) (n : BitVec 9) : State := { s with text := m, tlen := n }

def State.setResp (s : State) (r : Resp) : State := { s with resp := r }

def State.setIrq (s : State) (v : Bool) : State := { s with irqf0 := v, irqf1 := v }

def State.setBusy (s : State) (v : Bool) : State := { s with burstBusy := v }

/-- `Emit(e)`: append an event to TRACE (R14, R29). -/
def State.emit (s : State) (e : Event) : State := { s with trace := s.trace ++ [e] }

def State.setInputs (s : State) (l : List Input) : State := { s with inputs := l }

/-- The level of a mode on the command/data line (R171). -/
def dcLevel (cfg : Config) : LineMode → Bool
  | .cmd => cfg.dcLevelCmd
  | .data => cfg.dcLevelData

/-- Drive the command/data line to a mode and record it (R171). -/
def State.driveDc (s : State) (m : LineMode) : State :=
  State.emit { s with dc := dcLevel s.cfg m } (.dc m)

/-- Drive the reset line to a level and record it (R182). -/
def State.driveRst (s : State) (v : Bool) : State := State.emit { s with rst := v } (.rst v)

/-- `raise Fault(reason)`: set the sticky fault and nothing else (R216). -/
def State.raise (s : State) (r : FaultReason) : State := { s with fault := some r }

/-- Reset, the only thing that clears a fault: every piece of the block's state at its reset value (R34, R240). The
parameters keep their values, and so do the environment's actions, answers and counters, which are not the block's
(log 12). -/
def State.applyReset (s : State) : State :=
  { State.reset with
    glyph := s.glyph
    cfg := s.cfg
    inputs := s.inputs
    answers := s.answers
    draws := s.draws
    engineTurns := s.engineTurns }

/-! ## The course of a command -/

/-- How an operation inside a command ends: with a value, or with a raised fault, which ends the command (R14, R216). -/
inductive Run (α : Type) where
  | ret (a : α) (s : State)
  | raised (s : State)

/-- Go on with a value; a raised fault goes straight to the command's end. -/
def Run.andThen {α β : Type} (r : Run α) (k : α → State → Run β) : Run β :=
  match r with
  | .ret a s => k a s
  | .raised s => .raised s

/-- The state an operation leaves, however it ends. -/
def Run.final {α : Type} (r : Run α) : State :=
  match r with
  | .ret _ s => s
  | .raised s => s

/-- The end of a command: its `return` writes RESP once (R24); a raised fault writes it not at all (R216). Either way the
block is in its next state. -/
def completed (r : Run Resp) : Host.Outcome State Fault Refusal :=
  .next (match r with
         | .ret a s => s.setResp a
         | .raised s => s)

/-! ## Framebuffer writes -/

/-- `FBWrite(i, v)`, the only way the framebuffer is written (R113, R244). -/
def fbWrite (i : Nat) (v : Byte) (s : State) : Run Unit :=
  if s.burstBusy then .raised (s.raise .fbWriteDuringBurst)
  else .ret () (s.setFb (s.fb.write i v))

/-- `PutPixel(x, y, c)`: true for `Ok`, false for `Fail` (R112). -/
def putPixel (x y : Nat) (c : Color) (s : State) : Run Bool :=
  if inBounds x y then
    (fbWrite (pixelByte x y) (paintBit (s.fb.read (pixelByte x y)) (pixelBit y) c) s).andThen fun _ s' => .ret true s'
  else
    match s.cfg.drawOob with
    | .fail => .ret false s
    | .ignore => .ret true s

/-- PutPixel on each cell in order, up to the first failure (R143, R145). -/
def putPixels (cells : List (Nat × Nat × Color)) (s : State) : Run Bool :=
  match cells with
  | [] => .ret true s
  | (x, y, c) :: rest =>
    (putPixel x y c s).andThen fun ok s' => if ok then putPixels rest s' else .ret false s'

/-- FBWrite of one value at each address in order. -/
def fbWriteAll (addrs : List Nat) (v : Byte) (s : State) : Run Unit :=
  match addrs with
  | [] => .ret () s
  | i :: rest => (fbWrite i v s).andThen fun _ s' => fbWriteAll rest v s'

/-- `for i in 0 .. FB_BYTES-1: FBWrite(i, v)` (R115, R155, R180). -/
def fbFill (v : Byte) (s : State) : Run Unit := fbWriteAll (List.range fbBytes) v s

/-! ## Transfers -/

/-- `draw Bool`: the transport's answer, from `answers` while it lasts and free after that (R172, R173; log 2). -/
def drawAnswer (s : State) : Bool × State :=
  match s.answers with
  | a :: rest => (a, { s with answers := rest })
  | [] => (Config.freeAnswer s.draws, { s with draws := s.draws + 1 })

/-- Ready polling, at most POLL_BUDGET checks, changes nothing (R174; log 9). -/
def pollReady (budget : Nat) (s : State) : State :=
  match budget with
  | 0 => s
  | n + 1 => pollReady n s

/-- `SendCmd(b)` (R172). -/
def sendCmd (b : Byte) (s : State) : Run Bool :=
  if s.burstBusy then .raised (s.raise .transferDuringBurst)
  else
    let s1 := (pollReady s.cfg.pollBudget s).driveDc .cmd
    let d := drawAnswer s1
    .ret d.1 (d.2.emit (.cmd b d.1))

/-- `SendData(off, len)`: the bytes ascend (R54, R173). -/
def sendData (off len : Nat) (s : State) : Run Bool :=
  if s.burstBusy then .raised (s.raise .transferDuringBurst)
  else
    let s1 := (pollReady s.cfg.pollBudget s).driveDc .data
    let d := drawAnswer s1
    .ret d.1 (d.2.emit (.data off len (s.fb.slice off len) d.1))

/-- SendCmd on each byte in order, up to the first failure (R180). -/
def sendScript (script : List Byte) (s : State) : Run Bool :=
  match script with
  | [] => .ret true s
  | b :: rest => (sendCmd b s).andThen fun ok s' => if ok then sendScript rest s' else .ret false s'

/-- One page of the synchronous flush: page select, low column, high column, data; the status names the phase that failed
(R176). -/
def sendPage (p : Nat) (s : State) : Run Status :=
  (sendCmd (pageSelect s.cfg p) s).andThen fun ok s1 =>
  if !ok then .ret .pageAddressError s1 else
  (sendCmd s1.cfg.cmdColLow s1).andThen fun ok s2 =>
  if !ok then .ret .columnAddressError s2 else
  (sendCmd s2.cfg.cmdColHigh s2).andThen fun ok s3 =>
  if !ok then .ret .columnAddressError s3 else
  (sendData (p * displayWidth) displayWidth s3).andThen fun ok s4 =>
  if !ok then .ret .dataTransmitError s4 else .ret .ok s4

/-- The pages in order; a failing page aborts the rest (R176). -/
def sendPages (pages : List Nat) (s : State) : Run Resp :=
  match pages with
  | [] => .ret okResp s
  | p :: rest =>
    (sendPage p s).andThen fun st s' => if st = .ok then sendPages rest s' else .ret (failResp st) s'

/-- `FlushSync()` (R176). -/
def flushSync (s : State) : Run Resp := sendPages (List.range displayPages) s

/-- `FlushBurst()` (R179). -/
def flushBurst (s : State) : Run Resp :=
  (sendData 0 fbBytes s).andThen fun ok s' =>
    if ok then .ret okResp (s'.setBusy true) else .ret (failResp .dataTransmitError) s'

/-- `Flush()` (R178). -/
def flush (s : State) : Run Resp :=
  if s.cfg.burstMode then flushBurst s else flushSync s

/-! ## Cursor and text -/

/-- `SetCursor(x, y)`: both coordinates, or neither (R130). -/
def moveCursor (x y : Byte) (s : State) : Run Resp :=
  if x.toNat < displayWidth ∧ y.toNat < displayHeight then .ret okResp (s.setCursor x y)
  else .ret (failResp .cursorOutOfBounds) s

/-- The characters `TEXT[0..TLEN-1]`, in order (R22). -/
def textChars (s : State) : List Byte := s.text.slice 0 s.tlen.toNat

/-- `CX <- CX + n`, narrowed to the register (R12, R146); R35 shows that it never wraps (log 15). -/
def advanceCx (n : Nat) (s : State) : State := s.setCx (BitVec.ofNat 8 (s.cx.toNat + n))

/-- Step 2 of a character: the padding column, then `CX <- CX + 1` (R143). -/
def paintPadding (f : Font) (c : Color) (p : Bool) (s : State) : Run Bool :=
  if p then
    (putPixels (paddingCells f c s.cx.toNat s.cy.toNat) s).andThen fun ok s' =>
      if ok then .ret true (advanceCx 1 s') else .ret false s'
  else .ret true s

/-- Step 3 of a character: for each row, the glyph lookup and then that row's pixels (R144, R145). -/
def paintRows (ch : Byte) (f : Font) (c : Color) (rows : List Nat) (s : State) : Run Bool :=
  match rows with
  | [] => .ret true s
  | r :: rest =>
    match glyphRow s.glyph f (glyphIndex f ch r) with
    | none => .ret false s
    | some row =>
      (putPixels (rowCells f c s.cx.toNat s.cy.toNat r row) s).andThen fun ok s' =>
        if ok then paintRows ch f c rest s' else .ret false s'

/-- `WriteChar(ch, f, c, p)` (R140 to R147). -/
def rasterChar (ch : Byte) (f : Font) (c : Color) (p : Bool) (s : State) : Run Resp :=
  if fits s.cfg.fitCheck s.cx.toNat s.cy.toNat f then
    (paintPadding f c p s).andThen fun ok s1 =>
    if !ok then .ret (failResp .pixelOutOfBounds) s1 else
    (paintRows ch f c (List.range f.height) s1).andThen fun ok s2 =>
    if !ok then .ret (failResp .pixelOutOfBounds) s2 else
    .ret (dataResp (zext16 ch)) (advanceCx (advanceWidth s2.cfg f p) s2)
  else .ret (overflowResp s.cfg.overflowResult) s

/-- `WriteString(f, c, p)` over a text: WriteChar on each character in order, up to the first failure (R150). -/
def rasterText (f : Font) (c : Color) (p : Bool) (text : List Byte) (s : State) : Run Resp :=
  match text with
  | [] => .ret okResp s
  | ch :: rest =>
    (rasterChar ch f c p s).andThen fun r s' =>
      if r.status = .ok then rasterText f c p rest s' else .ret (failResp r.status) s'

/-! ## The agents between commands -/

/-- `BurstComplete()` (R190). -/
def burstComplete (s : State) : State := ((s.setBusy false).setIrq true).emit .burstDone

/-- The engine's turn between two commands: its one step where `BURST_BUSY = 1`; it has no step otherwise (R190;
log 11). -/
def engineTurn (s : State) : State := if s.burstBusy then burstComplete s else s

/-- No action is left in `inputs`, so the host issues nothing more. With a transfer in flight the engine completes it
where BURST_FAIL_ADMITTED = false (weak fairness, R191); where the strap is true it completes or hangs as the free value
says. Without a transfer nothing happens (log 3). -/
def idleTurn (s : State) : State :=
  if s.burstBusy then
    if s.cfg.burstFailAdmitted then
      let s' := { s with engineTurns := s.engineTurns + 1 }
      if Config.engineCompletes s.engineTurns then burstComplete s' else s'
    else burstComplete s
  else s

/-- An illegal word changes nothing but RESP (R78). -/
def rejectWord (s : State) : State := s.setResp (failResp .illegalCommand)

end Sys2Proof.Machine
end

