-- ==== Sys2Proof/Machine/GlyphReader.lean ====
section
/-! DEFINITION. The glyph store's command: GLYPH_READ (40_glyph_store.md). -/

namespace Sys2Proof.Machine

/-- GLYPH_READ f, idx (R104). -/
def execGlyphRead (f : Font) (idx : Half) (s : State) : Host.Outcome State Fault Refusal :=
  completed <| .ret (match glyphRow s.glyph f (idx.toNat : Int) with
                     | some row => dataResp row
                     | none => failResp .pixelOutOfBounds) s

end Sys2Proof.Machine
end

