-- ==== Sys2Proof/Machine/PixelEncoder.lean ====
section
/-! DEFINITION. The pixel encoder's commands: DRAW_PIXEL, FILL, FB_READ (41_pixel_encoder.md). -/

namespace Sys2Proof.Machine

/-- DRAW_PIXEL x, y, c (R114). -/
def execDrawPixel (x y : Byte) (c : Color) (s : State) : Host.Outcome State Fault Refusal :=
  completed <| (putPixel x.toNat y.toNat c s).andThen fun ok s' =>
    .ret (if ok then okResp else failResp .pixelOutOfBounds) s'

/-- FILL c (R115). -/
def execFill (c : Color) (s : State) : Host.Outcome State Fault Refusal :=
  completed <| (fbFill (fillByte c) s).andThen fun _ s' => .ret okResp s'

/-- FB_READ idx (R116). -/
def execFbRead (idx : Half) (s : State) : Host.Outcome State Fault Refusal :=
  completed <| .ret (if fbBytes ≤ idx.toNat then failResp .operandOutOfRange
                     else dataResp (zext16 (s.fb.read idx.toNat))) s

end Sys2Proof.Machine
end

