-- ==== Sys2Proof/Machine/Rasterizer.lean ====
section
/-! DEFINITION. The glyph rasterizer's commands: SET_CURSOR, CURSOR_READ, TEXT_CLEAR, TEXT_PUSH, WRITE_CHAR,
WRITE_STRING, WRITE (42_glyph_rasterizer.md). -/

namespace Sys2Proof.Machine

/-- SET_CURSOR x, y (R130). -/
def execSetCursor (x y : Byte) (s : State) : Host.Outcome State Fault Refusal :=
  completed (moveCursor x y s)

/-- CURSOR_READ (R131). -/
def execCursorRead (s : State) : Host.Outcome State Fault Refusal :=
  completed (.ret (dataResp (cursorData s)) s)

/-- TEXT_CLEAR: TLEN to 0, the bytes of TEXT stay (R132). -/
def execTextClear (s : State) : Host.Outcome State Fault Refusal :=
  completed (.ret okResp (s.setText s.text 0#9))

/-- TEXT_PUSH ch (R133). -/
def execTextPush (ch : Byte) (s : State) : Host.Outcome State Fault Refusal :=
  completed <|
    if s.tlen.toNat = s.cfg.textMax then .ret (failResp .operandOutOfRange) s
    else .ret okResp (s.setText (s.text.write s.tlen.toNat ch) (s.tlen + 1#9))

/-- WRITE_CHAR ch, f, c, p (R140). -/
def execWriteChar (ch : Byte) (f : Font) (c : Color) (p : Bool) (s : State) : Host.Outcome State Fault Refusal :=
  completed (rasterChar ch f c p s)

/-- WRITE_STRING f, c, p (R150). -/
def execWriteString (f : Font) (c : Color) (p : Bool) (s : State) : Host.Outcome State Fault Refusal :=
  completed (rasterText f c p (textChars s) s)

/-- WRITE f, x, y, b, c, p, u: fill, set the cursor, write the text, and flush when `u = 1`; the first failure ends it
(R155). -/
def execWrite (f : Font) (x y : Byte) (b c : Color) (p u : Bool) (s : State) : Host.Outcome State Fault Refusal :=
  completed <|
    (fbFill (fillByte b) s).andThen fun _ s1 =>
    (moveCursor x y s1).andThen fun r s2 =>
    if r.status ≠ .ok then .ret (failResp r.status) s2 else
    (rasterText f c p (textChars s2) s2).andThen fun r s3 =>
    if r.status ≠ .ok then .ret (failResp r.status) s3 else
    if u then flush s3 else .ret okResp s3

end Sys2Proof.Machine
end

