-- ==== Sys2Proof/Machine/Sequencer.lean ====
section
/-! DEFINITION. The display page sequencer's commands: FLUSH, INIT, IRQ_ACK, STATUS_READ (43_page_sequencer.md). -/

namespace Sys2Proof.Machine

/-- FLUSH (R178). -/
def execFlush (s : State) : Host.Outcome State Fault Refusal :=
  completed (flush s)

/-- The reset pulse before the script, by INIT_RESET_PULSE (R182). -/
def resetPulse (s : State) : State :=
  if s.cfg.initResetPulse then (s.driveRst false).driveRst true else s

/-- INIT: the pulse, the script, the clear, the initial flush, and the cursor home on success (R180). -/
def execInit (s : State) : Host.Outcome State Fault Refusal :=
  completed <|
    if s.burstBusy then .raised (s.raise .transferDuringBurst) else
    (sendScript (initScript s.cfg) (resetPulse s)).andThen fun ok s1 =>
    if !ok then .ret (failResp .unknownError) s1 else
    (fbFill 0x00#8 s1).andThen fun _ s2 =>
    (flush s2).andThen fun r s3 =>
    if r.status ≠ .ok then .ret (failResp r.status) s3 else
    .ret okResp (s3.setCursor 0#8 0#8)

/-- IRQ_ACK: both flags to 0 (R183). -/
def execIrqAck (s : State) : Host.Outcome State Fault Refusal :=
  completed (.ret okResp (s.setIrq false))

/-- STATUS_READ (R184). -/
def execStatusRead (s : State) : Host.Outcome State Fault Refusal :=
  completed (.ret (dataResp (statusWord s)) s)

end Sys2Proof.Machine
end

