-- ==== Sys2Proof/Machine/Dispatch.lean ====
section
/-! DEFINITION. One arm per command of the opcode table (R77). -/

namespace Sys2Proof.Machine

def exec (i : Instr) (s : State) : Host.Outcome State Fault Refusal :=
  match i with
  | .drawPixel x y c => Sys2Proof.Machine.execDrawPixel x y c s
  | .fill c => Sys2Proof.Machine.execFill c s
  | .setCursor x y => Sys2Proof.Machine.execSetCursor x y s
  | .writeChar ch f c p => Sys2Proof.Machine.execWriteChar ch f c p s
  | .textClear => Sys2Proof.Machine.execTextClear s
  | .textPush ch => Sys2Proof.Machine.execTextPush ch s
  | .writeString f c p => Sys2Proof.Machine.execWriteString f c p s
  | .write f x y b c p u => Sys2Proof.Machine.execWrite f x y b c p u s
  | .flush => Sys2Proof.Machine.execFlush s
  | .init => Sys2Proof.Machine.execInit s
  | .fbRead idx => Sys2Proof.Machine.execFbRead idx s
  | .glyphRead f idx => Sys2Proof.Machine.execGlyphRead f idx s
  | .cursorRead => Sys2Proof.Machine.execCursorRead s
  | .statusRead => Sys2Proof.Machine.execStatusRead s
  | .irqAck => Sys2Proof.Machine.execIrqAck s

end Sys2Proof.Machine
end

