-- ==== Sys2Proof/Machine/Port.lean ====
section
/-! DEFINITION. The environment's actions on the block: a command word on the port, the engine's turn, the reset input, and
what each does to a block that is faulted and to one that is not (R17, R71, R78, R190, R216, R240). -/

namespace Sys2Proof.Machine

/-- A command word on the port of a block that is not faulted (R78 checks 2 to 4, then the command). -/
def runWord (w : Word) (s : State) : Host.Outcome State Fault Refusal :=
  match decode w with
  | .instr i => exec i s
  | .illegal _ => .next (rejectWord s)

/-- A block that is not faulted takes an action. -/
def act (a : Input) (s : State) : Host.Outcome State Fault Refusal :=
  match a with
  | .command w => runWord w s
  | .engine => .next (engineTurn s)
  | .reset => .next s.applyReset

/-- A faulted block takes an action: only reset has an effect, and no agent of the block takes a step (R78 check 1, R216;
log 10). -/
def actFaulted (a : Input) (s : State) : Host.Outcome State Fault Refusal :=
  match a with
  | .command _ => .next s
  | .engine => .next s
  | .reset => .next s.applyReset

/-- The environment's next action, taken off the list. With none left the block idles, and a faulted block stops (log 10). -/
def takeAction (s : State) : Host.Outcome State Fault Refusal :=
  match s.inputs, s.fault with
  | a :: rest, none => act a (s.setInputs rest)
  | a :: rest, some _ => actFaulted a (s.setInputs rest)
  | [], none => .next (idleTurn s)
  | [], some r => .fault (.blockFaulted r)

/-- A command word presented next on the port, before the actions that are there (log 1). A command is one 32-bit word, and
the bits above `nbits` are 0. -/
def presentWord (s : State) (nbits w : Nat) : State :=
  s.setInputs (.command (BitVec.ofNat 32 (w % 2 ^ nbits)) :: s.inputs)

end Sys2Proof.Machine
end

