-- ==== Sys2Proof/Machine/Step.lean ====
section
/-! DEFINITION. One step: the environment's next action on the block. -/

namespace Sys2Proof.Machine

/-- One step of the block and its environment (R17, R71). -/
def step (s : State) : Host.Outcome State Fault Refusal := takeAction s

/-- The state whose very next step is given this command word (log 1). -/
def State.withFetchWord (s : State) (nbits w : Nat) : State := presentWord s nbits w

end Sys2Proof.Machine
end

