-- ==== Sys2Proof/Safety.lean ====
section
/-! DEFINITION. What counts as a sound state and a safe run (R20 to R27, R35, R60, R215, R216). -/

namespace Sys2Proof.Safety

open Sys2Proof.Machine

/-- The pixel at column `x` and row `y`: bit `y mod 8` of byte `x + (y div 8) * W` (R51). -/
def pixelAt (s : State) (x y : Nat) : Bool :=
  (s.fb.read (pixelByte x y)).getLsbD (pixelBit y)

/-- FB and TEXT are in canonical form and inside their sizes (R20, R22, R50). -/
def MemoryInv (s : State) : Prop :=
  s.fb.wf fbBytes = true ∧ s.text.wf s.cfg.textMax = true

/-- The cursor bound of R35. -/
def CursorInv (s : State) : Prop :=
  s.cx.toNat ≤ 129 ∧ s.cy.toNat ≤ 63

/-- TLEN counts bytes of TEXT: `0..TEXT_MAX` (R22). -/
def TextInv (s : State) : Prop :=
  s.tlen.toNat ≤ s.cfg.textMax

/-- A transfer in flight exists only in burst mode (R26), and it was started with the bytes the framebuffer still holds:
the last event of TRACE is the whole-buffer burst with exactly those bytes, answered true (R60, R179, R190). -/
def BurstInv (s : State) : Prop :=
  s.burstBusy = true →
    s.cfg.burstMode = true ∧ s.trace.getLast? = some (.data 0 fbBytes (s.fb.slice 0 fbBytes) true)

/-- Both faults occur only while a transfer is in flight, so only in burst mode (R215). -/
def FaultInv (s : State) : Prop :=
  s.fault ≠ none → s.cfg.burstMode = true ∧ s.burstBusy = true

/-- In sync mode no transfer is ever in flight, no flag is set and nothing faults (R26, R184, R215, R217). -/
def SyncInv (s : State) : Prop :=
  s.cfg.burstMode = false → s.burstBusy = false ∧ s.irqf0 = false ∧ s.irqf1 = false ∧ s.fault = none

/-- A run ends normally when the block is not faulted: a faulted state is a failure (R216). -/
def NotFaulted (s : State) : Prop := s.fault = none

end Sys2Proof.Safety
end

