-- ==== Sys2Proof/Certificates/Slice0/Obligations.lean ====
section
/-! DEFINITION. The statements for the provers. `Sys2Proof.Claims` holds what they are written with: the picture a character
paints, the events a flush sends, and one command after another. Each statement's docstring names the rules of spec/ it
rests on. -/

namespace Sys2Proof.Claims

open Sys2Proof.Machine Sys2Proof.Safety

/-- The state after a command. -/
def after (i : Instr) (s : State) : State :=
  match exec i s with
  | .next t => t
  | .fault _ => s
  | .refused _ => s

/-- The state after a list of commands, in order. -/
def afterAll (l : List Instr) (s : State) : State := l.foldl (fun s i => after i s) s

/-- `Fits(f)` on the cursor at entry, both forms spelled out (R141). -/
def FitsAt (k : FitCheck) (cx cy : Nat) (f : Font) : Prop :=
  match k with
  | .observed => cx + f.height < 128 ∧ cy + f.height < 128
  | .intended => cx + f.width < 128 ∧ cy + f.height < 64

/-- How many rows of a character, from row 0 on, the glyph table holds (R100, R102): none for `ch < 32`. -/
def rowsHeld (g : GlyphStore) (ch : Byte) (f : Font) : Nat :=
  if ch.toNat < 32 then 0 else min f.height ((g.table f).length - (ch.toNat - 32) * f.height)

/-- How many rows of a character, from row 0 on, PutPixel accepts at a cursor row (R112, R145): all under
DRAW_OOB = Ignore, those above row 64 under Fail. -/
def rowsDrawn (cfg : Config) (cy : Nat) (f : Font) : Nat :=
  match cfg.drawOob with
  | .fail => min f.height (64 - cy)
  | .ignore => f.height

/-- Bit `15 - j` of row `r` of a character (R101, R102). -/
def glyphPixel (g : GlyphStore) (ch : Byte) (f : Font) (r j : Nat) : Bool :=
  (((g.table f)[(ch.toNat - 32) * f.height + r]?).getD 0#16).getLsbD (15 - j)

/-- The picture after a character whose rows `0 .. k-1` were painted, with the padding column when `p` (R143 to R145): the
pixel at `(X, Y)` is White where this is true. -/
def painted (s : State) (ch : Byte) (f : Font) (c : Color) (p : Bool) (k X Y : Nat) : Bool :=
  let x0 := s.cx.toNat + (if p then 1 else 0)
  let y0 := s.cy.toNat
  if p = true ∧ X = s.cx.toNat ∧ y0 ≤ Y ∧ Y < y0 + f.height then !isWhite c
  else if x0 ≤ X ∧ X < x0 + f.width ∧ y0 ≤ Y ∧ Y < y0 + k then
    glyphPixel s.glyph ch f (Y - y0) (X - x0) == isWhite c
  else pixelAt s X Y

/-- The total advance of a successful character (R146). -/
def charAdvance (cfg : Config) (f : Font) (p : Bool) : Nat :=
  f.width + (if p then 1 else 0) + (if p && cfg.padDouble then 1 else 0)

/-- Every character of a text of `n` characters passes its fit check, finds its rows and is drawn whole, from a cursor
`(cx, cy)` on. -/
def TextFits (s : State) (f : Font) (p : Bool) (cx cy : Nat) : Prop :=
  ∀ k, k < s.tlen.toNat →
    FitsAt s.cfg.fitCheck (cx + k * charAdvance s.cfg f p) cy f ∧
    rowsHeld s.glyph (s.text.read k) f = f.height ∧ rowsDrawn s.cfg cy f = f.height

/-- The picture after a text painted from `(cx, cy)` over a background picture: character `k` occupies `charAdvance` columns,
its padding column first (R143 to R146, R150). -/
def textPainted (s : State) (f : Font) (c : Color) (p : Bool) (cx cy : Nat) (bg : Nat → Nat → Bool) (X Y : Nat) : Bool :=
  let w := charAdvance s.cfg f p
  let k := (X - cx) / w
  let j := (X - cx) % w
  let d := if p then 1 else 0
  if cx ≤ X ∧ k < s.tlen.toNat ∧ cy ≤ Y ∧ Y < cy + f.height then
    if j < d then !isWhite c
    else if j < d + f.width then glyphPixel s.glyph (s.text.read k) f (Y - cy) (j - d) == isWhite c
    else bg X Y
  else bg X Y

/-- The events of the `k`-th transfer of a page-addressed flush, counting from 0 (R176, R177). -/
def transferEvents (cfg : Config) (fb : Memory) (k : Nat) (ok : Bool) : List Event :=
  match k % 4 with
  | 0 => [.dc .cmd, .cmd (cfg.cmdPageBase ||| BitVec.ofNat 8 (k / 4)) ok]
  | 1 => [.dc .cmd, .cmd cfg.cmdColLow ok]
  | 2 => [.dc .cmd, .cmd cfg.cmdColHigh ok]
  | _ => [.dc .data, .data (128 * (k / 4)) 128 (fb.slice (128 * (k / 4)) 128) ok]

/-- The status of a page-addressed flush whose `k`-th transfer failed (R176). -/
def transferStatus (k : Nat) : Status :=
  match k % 4 with
  | 0 => .pageAddressError
  | 1 => .columnAddressError
  | 2 => .columnAddressError
  | _ => .dataTransmitError

/-- The line's level after the `k`-th transfer (R171). -/
def transferLevel (cfg : Config) (k : Nat) : Bool :=
  if k % 4 = 3 then cfg.dcLevelData else cfg.dcLevelCmd

/-- The events of the first `n` transfers, all answered true. -/
def goodTransfers (cfg : Config) (fb : Memory) (n : Nat) : List Event :=
  (List.range n).flatMap fun k => transferEvents cfg fb k true

/-- The events of a whole-buffer burst (R179). -/
def burstEvents (fb : Memory) (ok : Bool) : List Event := [.dc .data, .data 0 1024 (fb.slice 0 1024) ok]

/-- The events of a successful flush in either mode (R178). -/
def flushEvents (cfg : Config) (fb : Memory) : List Event :=
  if cfg.burstMode then burstEvents fb true else goodTransfers cfg fb 32

/-- How many answers a successful flush draws (R176, R179). -/
def flushDraws (cfg : Config) : Nat := if cfg.burstMode then 1 else 32

/-- The events of the reset pulse (R182). -/
def pulseEvents (cfg : Config) : List Event := if cfg.initResetPulse then [.rst false, .rst true] else []

/-- The reset line after INIT's start (R182). -/
def pulseLevel (cfg : Config) (rst : Bool) : Bool := if cfg.initResetPulse then true else rst

/-- The script of the mode (R181). -/
def script (cfg : Config) : List Byte := if cfg.burstMode then cfg.initScriptHoriz else cfg.initScriptPage

/-- The events of script bytes, all answered true (R172, R181). -/
def scriptEvents (l : List Byte) : List Event := l.flatMap fun b => [.dc .cmd, .cmd b true]

/-- The next `n` answers are true, and `rest` follow (R172, R173). -/
def okAnswers (n : Nat) (rest : List Bool) : List Bool := List.replicate n true ++ rest

/-- WRITE_CHAR on each character in order, up to the first failure or fault (R150). -/
def charByChar (f : Font) (c : Color) (p : Bool) (text : List Byte) (s : State) : State :=
  match text with
  | [] => s.setResp ⟨.ok, 0#16⟩
  | ch :: rest =>
    let t := after (.writeChar ch f c p) s
    if t.fault ≠ none then t
    else if t.resp.status = .ok then charByChar f c p rest t
    else t.setResp ⟨t.resp.status, 0#16⟩

/-- FILL, SET_CURSOR, WRITE_STRING and, when asked for, FLUSH, up to the first failure or fault (R155). -/
def writeBySteps (f : Font) (x y : Byte) (b c : Color) (p u : Bool) (s : State) : State :=
  let t1 := after (.fill b) s
  if t1.fault ≠ none then t1 else
  let t2 := after (.setCursor x y) t1
  if t2.resp.status ≠ .ok then t2 else
  let t3 := after (.writeString f c p) t2
  if t3.resp.status ≠ .ok then t3 else
  if u then after .flush t3 else t3

/-- The same block with another poll budget. -/
def withBudget (n : Nat) (s : State) : State := { s with cfg := { s.cfg with pollBudget := n } }

/-- The same block with the other result for a rejected character. -/
def withOverflow (o : OverflowResult) (s : State) : State := { s with cfg := { s.cfg with overflowResult := o } }

/-- The commands that may reach the transport: FLUSH, INIT, and WRITE with `u = 1` (R178, R180, R155). -/
def transfers : Instr → Bool
  | .flush => true
  | .init => true
  | .write _ _ _ _ _ _ u => u
  | _ => false

/-- The commands that write the framebuffer (R50). -/
def writesFb : Instr → Bool
  | .drawPixel _ _ _ => true
  | .fill _ => true
  | .writeChar _ _ _ _ => true
  | .writeString _ _ _ => true
  | .write _ _ _ _ _ _ _ => true
  | .init => true
  | _ => false

/-- The commands that write CY (R21). -/
def writesCy : Instr → Bool
  | .setCursor _ _ => true
  | .write _ _ _ _ _ _ _ => true
  | .init => true
  | _ => false

/-- The commands that write CX (R21). -/
def writesCx : Instr → Bool
  | .writeChar _ _ _ _ => true
  | .writeString _ _ _ => true
  | i => writesCy i

/-- The commands that write TEXT or TLEN (R22). -/
def writesText : Instr → Bool
  | .textClear => true
  | .textPush _ => true
  | _ => false

/-- The commands the host may issue while a transfer is in flight (R246). -/
def freeDuringBurst : Instr → Bool
  | .setCursor _ _ => true
  | .textClear => true
  | .textPush _ => true
  | .fbRead _ => true
  | .glyphRead _ _ => true
  | .cursorRead => true
  | .statusRead => true
  | .irqAck => true
  | _ => false

/-- FB, TEXT and TLEN are sound together, under straps that R11 and R175 allow. -/
def StorageInv (s : State) : Prop := MemoryInv s ∧ TextInv s ∧ s.cfg.wellFormed = true

end Sys2Proof.Claims

section

open Sys2Proof Sys2Proof.Machine Sys2Proof.Safety Sys2Proof.Claims

/-! ## Encoding -/

/-- R72 to R77: decoding the word of a command gives the command back, for every command and every operand. -/
def Obligations.DecodeOfEncodeIsTheCommand : Prop :=
  ∀ i : Instr, decode (encode i) = .instr i

/-- R72 to R79: a word that decodes to a command is that command's word, so no bit of a legal word is ignored. -/
def Obligations.EncodeOfDecodedIsTheWord : Prop :=
  ∀ (w : Word) (i : Instr), decode w = .instr i → encode i = w

/-- R76 to R79: a word decodes to a command exactly when it selects a row of the opcode map and its font, where the row uses
one, exists; and no word selects two rows. -/
def Obligations.DecodedWordsAreTheLegalWords : Prop :=
  ∀ w : Word, ((∃ i, decode w = .instr i) ↔ legalWord w = true) ∧
    ∀ r ∈ opcodeMap, ∀ q ∈ opcodeMap, r.selects w = true → q.selects w = true → r = q

/-- R84: the four worked encodings, read and written. -/
def Obligations.WorkedEncodingsDecode : Prop :=
  decode 0x09030011#32 = .instr (.drawPixel 3#8 9#8 .white) ∧
  decode 0x00410154#32 = .instr (.writeChar 0x41#8 .f5x7 .white true) ∧
  decode 0x020204D8#32 = .instr (.write .f16x26 2#8 2#8 .black .white true true) ∧
  decode 0x02A8010C#32 = .instr (.glyphRead .f5x7 680#16) ∧
  encode (.drawPixel 3#8 9#8 .white) = 0x09030011#32 ∧
  encode (.writeChar 0x41#8 .f5x7 .white true) = 0x00410154#32 ∧
  encode (.write .f16x26 2#8 2#8 .black .white true true) = 0x020204D8#32 ∧
  encode (.glyphRead .f5x7 680#16) = 0x02A8010C#32

/-! ## The step -/

/-- R71, R78: with a legal word on the port of a block that is not faulted, the step is the command's execution, after the
word has left the environment's actions. -/
def Obligations.StepRunsTheDecodedCommand : Prop :=
  ∀ (s : State) (w : Word) (rest : List Input) (i : Instr),
    s.inputs = .command w :: rest → s.fault = none → decode w = .instr i → step s = exec i (s.setInputs rest)

/-- R78: an illegal word changes no state but RESP, which becomes (IllegalCommand, 0x0000). -/
def Obligations.IllegalWordWritesOnlyResp : Prop :=
  ∀ (s : State) (w : Word) (rest : List Input),
    s.inputs = .command w :: rest → s.fault = none → legalWord w = false →
      step s = .next { s with inputs := rest, resp := ⟨.illegalCommand, 0#16⟩ }

/-- R78 check 1, R216: a faulted block takes no step: a command word, legal or not, and the engine's turn leave every field of
the block as it was. That the action leaves the list, and that the step answers the model's fault when none is left, is the
model's choice (log 10). -/
def Obligations.FaultedBlockTakesNoStep : Prop :=
  ∀ (s : State) (r : FaultReason), s.fault = some r →
    (∀ (a : Input) (rest : List Input), a ≠ .reset → s.inputs = a :: rest → step s = .next { s with inputs := rest }) ∧
    (s.inputs = [] → step s = .fault (.blockFaulted r))

/-- R216, R240: no command clears a fault, and a step leaves a faulted block unfaulted exactly when it is a reset. -/
def Obligations.OnlyResetClearsAFault : Prop :=
  (∀ (i : Instr) (s t : State), exec i s = .next t → s.fault ≠ none → t.fault ≠ none) ∧
  (∀ s t : State, step s = .next t → s.fault ≠ none → (t.fault = none ↔ ∃ rest, s.inputs = .reset :: rest))

/-- R34, R240: the reset input, in every state, puts the block's state at its reset values and keeps the parameters; a
transfer in flight is abandoned, so the engine has no step. TEXT, DC and RST are left out: the spec gives them no value. -/
def Obligations.ResetInputRestoresTheBlock : Prop :=
  ∀ (s : State) (rest : List Input), s.inputs = .reset :: rest →
    ∃ t, step s = .next t ∧ (∀ a, t.fb.read a = 0#8) ∧ t.cx = 0#8 ∧ t.cy = 0#8 ∧ t.tlen = 0#9 ∧
      t.resp = ⟨.ok, 0#16⟩ ∧ t.irqf0 = false ∧ t.irqf1 = false ∧ t.burstBusy = false ∧ t.fault = none ∧
      t.trace = [] ∧ t.glyph = s.glyph ∧ t.cfg = s.cfg ∧ engineTurn t = t

/-- R34 and the defaults of R11: the values State.reset gives the block. R11 leaves the glyph contents and the scripts OPEN,
and they are opaque there (logs 6 and 7), and gives POLL_BUDGET no value (log 9). That the parameters stand in the state at
their defaults is the model's choice (log 8); so is row 0 of the 5x7 font, which R105 asks only of a store that claims to
hold the repository's fonts (log 6). -/
def Obligations.ResetStateHoldsTheSpecValues : Prop :=
  (∀ a, State.reset.fb.read a = 0#8) ∧ State.reset.cx = 0#8 ∧ State.reset.cy = 0#8 ∧ State.reset.tlen = 0#9 ∧
  State.reset.resp.status.code = 0#4 ∧ State.reset.resp.data = 0#16 ∧ State.reset.irqf0 = false ∧
  State.reset.irqf1 = false ∧ State.reset.burstBusy = false ∧ State.reset.fault = none ∧ State.reset.trace = [] ∧
  State.reset.cfg.fitCheck = .observed ∧ State.reset.cfg.overflowResult = .lineOverflow ∧
  State.reset.cfg.drawOob = .fail ∧ State.reset.cfg.padDouble = false ∧ State.reset.cfg.burstMode = false ∧
  State.reset.cfg.burstFailAdmitted = true ∧ State.reset.cfg.initResetPulse = true ∧ State.reset.cfg.textMax = 256 ∧
  State.reset.cfg.cmdPageBase = 0xB0#8 ∧ State.reset.cfg.cmdColLow = 0x00#8 ∧ State.reset.cfg.cmdColHigh = 0x10#8 ∧
  State.reset.cfg.dcLevelCmd = false ∧ State.reset.cfg.dcLevelData = true ∧
  (∀ f, (State.reset.glyph.table f).length = 95 * f.height) ∧
  (State.reset.glyph.table .f5x7)[0]? = some 0x0000#16

/-- R190, R191: the engine in a block that is not faulted. At its turn, with a transfer in flight it completes it:
BURST_BUSY to 0, both flags to 1, BURST_DONE emitted, nothing else; without one it has no step. With no action left the block
idles: without a transfer it stays as it was; with one, it is completed where BURST_FAIL_ADMITTED = false, and completed or
left in flight, with only the model's own counter advanced, where the strap is true. That a turn without a transfer is an
action is the model's choice (log 11), and so is what an idle step does (log 3). -/
def Obligations.EngineCompletesTheTransfer : Prop :=
  ∀ s : State, s.fault = none →
    (∀ rest, s.inputs = .engine :: rest →
      (s.burstBusy = true →
        step s = .next { s with inputs := rest, burstBusy := false, irqf0 := true, irqf1 := true,
                                trace := s.trace ++ [.burstDone] }) ∧
      (s.burstBusy = false → step s = .next { s with inputs := rest })) ∧
    (s.inputs = [] →
      (s.burstBusy = false → step s = .next s) ∧
      (s.burstBusy = true → s.cfg.burstFailAdmitted = false →
        step s = .next { s with burstBusy := false, irqf0 := true, irqf1 := true, trace := s.trace ++ [.burstDone] }) ∧
      (s.burstBusy = true → s.cfg.burstFailAdmitted = true →
        step s = .next { s with burstBusy := false, irqf0 := true, irqf1 := true, trace := s.trace ++ [.burstDone],
                                engineTurns := s.engineTurns + 1 } ∨
        step s = .next { s with engineTurns := s.engineTurns + 1 }))

/-- R191: with BURST_FAIL_ADMITTED = false no run keeps BURST_BUSY = 1 for ever: after at most one step more than the
environment has actions, the block is not busy or a fault has stopped it. That the engine completes when the actions run
out is the model's reading of weak fairness (log 3). -/
def Obligations.FairEngineLeavesNoBurstForever : Prop :=
  ∀ s : State, s.cfg.burstFailAdmitted = false → s.fault = none →
    ∃ k, k ≤ s.inputs.length + 1 ∧ ∃ t, core.run k s = .next t ∧ (t.burstBusy = false ∨ t.fault ≠ none)

/-! ## Pixel encoder -/

/-- R51, R110: the byte and the bit of an in-range pixel; the byte is in the framebuffer, two in-range pixels share a bit only
when they are the same pixel, and every bit of the framebuffer is some pixel's. -/
def Obligations.PixelAddressIsABijection : Prop :=
  (∀ x y, x < 128 → y < 64 →
    pixelByte x y = x + y / 8 * 128 ∧ pixelBit y = y % 8 ∧ pixelByte x y ≤ 1023 ∧ pixelBit y ≤ 7) ∧
  (∀ x y x' y', x < 128 → y < 64 → x' < 128 → y' < 64 →
    pixelByte x y = pixelByte x' y' → pixelBit y = pixelBit y' → x = x' ∧ y = y') ∧
  (∀ i n, i < 1024 → n < 8 → ∃ x y, x < 128 ∧ y < 64 ∧ pixelByte x y = i ∧ pixelBit y = n)

/-- R112, R114, R57: an in-range DRAW_PIXEL with no transfer in flight makes its pixel the colour, leaves every other pixel
as it was, and changes nothing but FB and RESP. -/
def Obligations.DrawPixelPaintsOnePixel : Prop :=
  ∀ (x y : Byte) (c : Color) (s : State), s.burstBusy = false → s.fb.wf fbBytes = true → x.toNat < 128 → y.toNat < 64 →
    ∃ t, exec (.drawPixel x y c) s = .next t ∧ t = { s with fb := t.fb, resp := ⟨.ok, 0#16⟩ } ∧
      t.fb.wf fbBytes = true ∧
      (∀ X Y, X < 128 → Y < 64 →
        pixelAt t X Y = if X = x.toNat ∧ Y = y.toNat then isWhite c else pixelAt s X Y) ∧
      (∀ a, a ≠ pixelByte x.toNat y.toNat → t.fb.read a = s.fb.read a)

/-- R112, R114: an out-of-range DRAW_PIXEL writes nothing but RESP, in every state, also during a burst; the status is by
DRAW_OOB. -/
def Obligations.DrawPixelOutsideWritesNothing : Prop :=
  ∀ (x y : Byte) (c : Color) (s : State), 128 ≤ x.toNat ∨ 64 ≤ y.toNat →
    exec (.drawPixel x y c) s =
      .next { s with resp := match s.cfg.drawOob with
                             | .fail => ⟨.pixelOutOfBounds, 0#16⟩
                             | .ignore => ⟨.ok, 0#16⟩ }

/-- R115: FILL with no transfer in flight sets every byte and changes nothing but FB and RESP; with one in flight it faults
before any byte is written. -/
def Obligations.FillSetsEveryByte : Prop :=
  ∀ (c : Color) (s : State), s.fb.wf fbBytes = true →
    (s.burstBusy = false →
      ∃ t, exec (.fill c) s = .next t ∧ t = { s with fb := t.fb, resp := ⟨.ok, 0#16⟩ } ∧ t.fb.wf fbBytes = true ∧
        ∀ a, a < 1024 → t.fb.read a = if isWhite c then 0xFF#8 else 0x00#8) ∧
    (s.burstBusy = true → exec (.fill c) s = .next { s with fault := some .fbWriteDuringBurst })

/-- R116, R85: FB_READ answers the byte, or OperandOutOfRange from index 1024 on, and changes nothing but RESP. -/
def Obligations.FbReadAnswersTheByte : Prop :=
  ∀ (idx : Half) (s : State),
    (idx.toNat < 1024 →
      exec (.fbRead idx) s = .next { s with resp := ⟨.ok, (s.fb.read idx.toNat).setWidth 16⟩ }) ∧
    (1024 ≤ idx.toNat → exec (.fbRead idx) s = .next { s with resp := ⟨.operandOutOfRange, 0#16⟩ })

/-- R117, first law: DRAW_PIXEL then FB_READ of the pixel's byte answers with the pixel's bit as drawn and every other bit as
it was. -/
def Obligations.DrawnPixelReadsBack : Prop :=
  ∀ (x y : Byte) (c : Color) (idx : Half) (s : State), s.burstBusy = false → s.fb.wf fbBytes = true →
    x.toNat < 128 → y.toNat < 64 → idx.toNat = pixelByte x.toNat y.toNat →
    ∃ t, exec (.fbRead idx) (after (.drawPixel x y c) s) = .next t ∧ t.resp.status = .ok ∧
      ∀ n, n < 8 → t.resp.data.getLsbD n =
        if n = pixelBit y.toNat then isWhite c else (s.fb.read idx.toNat).getLsbD n

/-- R117, second and third laws: the same draw twice is the draw once, and a fill forgets the fill before it. -/
def Obligations.DrawAndFillAreIdempotent : Prop :=
  ∀ s : State, s.burstBusy = false → s.fb.wf fbBytes = true →
    (∀ (x y : Byte) (c : Color),
      after (.drawPixel x y c) (after (.drawPixel x y c) s) = after (.drawPixel x y c) s) ∧
    (∀ c d : Color, after (.fill d) (after (.fill c) s) = after (.fill d) s)

/-- R117, fourth law: draws to distinct in-range pixels commute, whole state for whole state. -/
def Obligations.DrawsToDistinctPixelsCommute : Prop :=
  ∀ (x y x' y' : Byte) (c c' : Color) (s : State), s.burstBusy = false → s.fb.wf fbBytes = true →
    x.toNat < 128 → y.toNat < 64 → x'.toNat < 128 → y'.toNat < 64 → (x, y) ≠ (x', y') →
    after (.drawPixel x' y' c') (after (.drawPixel x y c) s) =
      after (.drawPixel x y c) (after (.drawPixel x' y' c') s)

/-! ## Glyph store -/

/-- R102: the glyph index is over the integers. For 32..126 it lies in `0 .. 95*FH - 1` and its row exists in every table
R11 allows; below 32 it is negative and no row exists; from 127 on it is past the default table, whose row 0 fails. -/
def Obligations.GlyphIndexRange : Prop :=
  ∀ (f : Font) (ch : Byte) (r : Nat) (g : GlyphStore), r < f.height →
    glyphIndex f ch r = ((ch.toNat : Int) - 32) * f.height + r ∧
    (32 ≤ ch.toNat → ch.toNat ≤ 126 →
      0 ≤ glyphIndex f ch r ∧ glyphIndex f ch r ≤ 95 * f.height - 1 ∧
      (g.tableOk f = true → glyphRow g f (glyphIndex f ch r) ≠ none)) ∧
    (ch.toNat < 32 → glyphIndex f ch r ≤ -1 ∧ glyphRow g f (glyphIndex f ch r) = none) ∧
    (127 ≤ ch.toNat →
      95 * (f.height : Int) ≤ glyphIndex f ch r ∧
      ((g.table f).length = 95 * f.height → glyphRow g f (glyphIndex f ch r) = none))

/-- R100, R104: GLYPH_READ answers the row, or PixelOutOfBounds past the table, and changes nothing but RESP. -/
def Obligations.GlyphReadAnswersTheRow : Prop :=
  ∀ (f : Font) (idx : Half) (s : State),
    (∀ row, (s.glyph.table f)[idx.toNat]? = some row →
      exec (.glyphRead f idx) s = .next { s with resp := ⟨.ok, row⟩ }) ∧
    ((s.glyph.table f).length ≤ idx.toNat →
      exec (.glyphRead f idx) s = .next { s with resp := ⟨.pixelOutOfBounds, 0#16⟩ })

/-- R53, R140, R144: the source's test of a glyph column is bit `15 - j` of the row. -/
def Obligations.GlyphBitTestIsTheRowBit : Prop :=
  ∀ (row : Half) (j : Nat), j < 16 → glyphBit row j = row.getLsbD (15 - j)

/-! ## Glyph rasterizer -/

/-- R130: SET_CURSOR sets both coordinates when both are in range, and neither otherwise. -/
def Obligations.SetCursorSetsBothOrNeither : Prop :=
  ∀ (x y : Byte) (s : State),
    (x.toNat < 128 ∧ y.toNat < 64 →
      exec (.setCursor x y) s = .next { s with cx := x, cy := y, resp := ⟨.ok, 0#16⟩ }) ∧
    (128 ≤ x.toNat ∨ 64 ≤ y.toNat →
      exec (.setCursor x y) s = .next { s with resp := ⟨.cursorOutOfBounds, 0#16⟩ })

/-- R131: CURSOR_READ answers CY in data bits [15:8] and CX in [7:0], and changes nothing but RESP. -/
def Obligations.CursorReadAnswersTheCursor : Prop :=
  ∀ s : State, ∃ t, exec .cursorRead s = .next t ∧ t = { s with resp := ⟨.ok, t.resp.data⟩ } ∧
    t.resp.data.extractLsb' 8 8 = s.cy ∧ t.resp.data.extractLsb' 0 8 = s.cx

/-- R132: TEXT_CLEAR sets TLEN to 0 and leaves the bytes of TEXT. -/
def Obligations.TextClearEmptiesTheText : Prop :=
  ∀ s : State, exec .textClear s = .next { s with tlen := 0#9, resp := ⟨.ok, 0#16⟩ }

/-- R133: TEXT_PUSH appends its byte at TLEN, or changes nothing but RESP when TLEN = TEXT_MAX. -/
def Obligations.TextPushAppends : Prop :=
  ∀ (ch : Byte) (s : State), StorageInv s →
    (s.tlen.toNat < s.cfg.textMax →
      ∃ t, exec (.textPush ch) s = .next t ∧
        t = { s with text := t.text, tlen := t.tlen, resp := ⟨.ok, 0#16⟩ } ∧
        t.tlen.toNat = s.tlen.toNat + 1 ∧ t.text.read s.tlen.toNat = ch ∧
        ∀ k, k ≠ s.tlen.toNat → t.text.read k = s.text.read k) ∧
    (s.tlen.toNat = s.cfg.textMax →
      exec (.textPush ch) s = .next { s with resp := ⟨.operandOutOfRange, 0#16⟩ })

/-- R83: `PUTS "s"`, that is TEXT_CLEAR and one TEXT_PUSH per byte, loads exactly the string when it fits in TEXT. -/
def Obligations.PutsLoadsTheString : Prop :=
  ∀ (l : List Byte) (s : State), StorageInv s → l.length ≤ s.cfg.textMax →
    (afterAll (.textClear :: l.map Instr.textPush) s).tlen.toNat = l.length ∧
    textChars (afterAll (.textClear :: l.map Instr.textPush) s) = l ∧
    (afterAll (.textClear :: l.map Instr.textPush) s).resp = ⟨.ok, 0#16⟩

/-- R140, R143 to R147: a character that fits, whose rows the table holds and whose rows are all drawn, paints its padding
column and its box exactly, advances CX, echoes the character and changes nothing else. -/
def Obligations.WriteCharPaintsTheCharacter : Prop :=
  ∀ (ch : Byte) (f : Font) (c : Color) (p : Bool) (s : State), s.burstBusy = false → s.fb.wf fbBytes = true →
    FitsAt s.cfg.fitCheck s.cx.toNat s.cy.toNat f → rowsHeld s.glyph ch f = f.height →
    rowsDrawn s.cfg s.cy.toNat f = f.height →
    ∃ t, exec (.writeChar ch f c p) s = .next t ∧
      t = { s with fb := t.fb, cx := t.cx, resp := ⟨.ok, ch.setWidth 16⟩ } ∧ t.fb.wf fbBytes = true ∧
      t.cx.toNat = s.cx.toNat + charAdvance s.cfg f p ∧
      ∀ X Y, X < 128 → Y < 64 → pixelAt t X Y = painted s ch f c p f.height X Y

/-- R142: a character that fails its fit check changes nothing but RESP, in every state, also during a burst; the status is by
OVERFLOW_RESULT. No successful character echoes 0x0000, since character 0 always fails. -/
def Obligations.WriteCharRejectedByTheFitCheck : Prop :=
  ∀ (ch : Byte) (f : Font) (c : Color) (p : Bool) (s : State),
    (¬ FitsAt s.cfg.fitCheck s.cx.toNat s.cy.toNat f →
      exec (.writeChar ch f c p) s =
        .next { s with resp := match s.cfg.overflowResult with
                               | .lineOverflow => ⟨.lineOverflow, 0#16⟩
                               | .noOpSuccess => ⟨.ok, 0#16⟩ }) ∧
    (FitsAt s.cfg.fitCheck s.cx.toNat s.cy.toNat f → s.burstBusy = false →
      (after (.writeChar 0#8 f c p) s).resp = ⟨.pixelOutOfBounds, 0#16⟩ ∧
      ((after (.writeChar ch f c p) s).resp.status = .ok → (after (.writeChar ch f c p) s).resp.data ≠ 0#16))

/-- R144, R145, R147: a character that fails at a glyph row, by its lookup or by an out-of-range pixel, after a padding column
that was drawn whole if asked for, keeps the rows above and the padding's advance, and answers PixelOutOfBounds. -/
def Obligations.WriteCharStopsAtTheFailingRow : Prop :=
  ∀ (ch : Byte) (f : Font) (c : Color) (p : Bool) (s : State), s.burstBusy = false → s.fb.wf fbBytes = true →
    FitsAt s.cfg.fitCheck s.cx.toNat s.cy.toNat f → (p = true → rowsDrawn s.cfg s.cy.toNat f = f.height) →
    min (rowsHeld s.glyph ch f) (rowsDrawn s.cfg s.cy.toNat f) < f.height →
    ∃ t, exec (.writeChar ch f c p) s = .next t ∧
      t = { s with fb := t.fb, cx := t.cx, resp := ⟨.pixelOutOfBounds, 0#16⟩ } ∧ t.fb.wf fbBytes = true ∧
      t.cx.toNat = s.cx.toNat + (if p then 1 else 0) ∧
      ∀ X Y, X < 128 → Y < 64 →
        pixelAt t X Y = painted s ch f c p (min (rowsHeld s.glyph ch f) (rowsDrawn s.cfg s.cy.toNat f)) X Y

/-- R143, R147: a padding column that runs off the bottom under DRAW_OOB = Fail ends the command with PixelOutOfBounds; its
rows above stay drawn, no glyph row is drawn and CX is not advanced. -/
def Obligations.WriteCharStopsInThePadding : Prop :=
  ∀ (ch : Byte) (f : Font) (c : Color) (s : State), s.burstBusy = false → s.fb.wf fbBytes = true →
    FitsAt s.cfg.fitCheck s.cx.toNat s.cy.toNat f → rowsDrawn s.cfg s.cy.toNat f < f.height →
    ∃ t, exec (.writeChar ch f c true) s = .next t ∧
      t = { s with fb := t.fb, resp := ⟨.pixelOutOfBounds, 0#16⟩ } ∧ t.fb.wf fbBytes = true ∧
      ∀ X Y, X < 128 → Y < 64 → pixelAt t X Y = painted s ch f c true 0 X Y

/-- R150: WRITE_STRING is WRITE_CHAR on each character of TEXT in order, up to the first failure, whose status it answers
with data 0x0000; a fault leaves RESP as it was before the command. -/
def Obligations.WriteStringIsWriteCharInOrder : Prop :=
  ∀ (f : Font) (c : Color) (p : Bool) (s : State), s.fault = none →
    exec (.writeString f c p) s =
      .next (if (charByChar f c p (textChars s) s).fault = none then charByChar f c p (textChars s) s
             else (charByChar f c p (textChars s) s).setResp s.resp)

/-- R150, R143 to R146: a text all of whose characters fit, are held and are drawn paints every character, advances CX by all
of them, and changes nothing else. -/
def Obligations.WriteStringPaintsTheText : Prop :=
  ∀ (f : Font) (c : Color) (p : Bool) (s : State), s.burstBusy = false → s.fb.wf fbBytes = true →
    TextFits s f p s.cx.toNat s.cy.toNat →
    ∃ t, exec (.writeString f c p) s = .next t ∧
      t = { s with fb := t.fb, cx := t.cx, resp := ⟨.ok, 0#16⟩ } ∧ t.fb.wf fbBytes = true ∧
      t.cx.toNat = s.cx.toNat + s.tlen.toNat * charAdvance s.cfg f p ∧
      ∀ X Y, X < 128 → Y < 64 →
        pixelAt t X Y = textPainted s f c p s.cx.toNat s.cy.toNat (pixelAt s) X Y

/-- R150 corner case: under either OVERFLOW_RESULT a text ends in the same state but for the strap itself and RESP.status; and
where the statuses differ, one is LineOverflow and the other OK. -/
def Obligations.OverflowResultChangesOnlyTheStatus : Prop :=
  ∀ (f : Font) (c : Color) (p : Bool) (o : OverflowResult) (s : State),
    ∃ t t', exec (.writeString f c p) s = .next t ∧ exec (.writeString f c p) (withOverflow o s) = .next t' ∧
      t' = (withOverflow o t).setResp ⟨t'.resp.status, t.resp.data⟩ ∧
      (t'.resp.status = t.resp.status ∨ (t.resp.status = .lineOverflow ∧ t'.resp.status = .ok) ∨
        (t.resp.status = .ok ∧ t'.resp.status = .lineOverflow))

/-- R155: WRITE is FILL of the background, SET_CURSOR, WRITE_STRING and, with `u = 1`, FLUSH, up to the first failure or
fault. -/
def Obligations.WriteIsItsStepsInOrder : Prop :=
  ∀ (f : Font) (x y : Byte) (b c : Color) (p u : Bool) (s : State), s.fault = none →
    exec (.write f x y b c p u) s = .next (writeBySteps f x y b c p u s)

/-- R155: a WRITE at a valid position whose text fits, is held and is drawn, and whose flush, if asked for, is answered true,
paints the text over the background, leaves the cursor after it, sends the flush's events, and answers OK. -/
def Obligations.WritePaintsTheTextOverTheBackground : Prop :=
  ∀ (f : Font) (x y : Byte) (b c : Color) (p u : Bool) (rest : List Bool) (s : State),
    s.burstBusy = false → s.fb.wf fbBytes = true → x.toNat < 128 → y.toNat < 64 → TextFits s f p x.toNat y.toNat →
    (u = true → s.answers = okAnswers (flushDraws s.cfg) rest) →
    ∃ t, exec (.write f x y b c p u) s = .next t ∧
      t = { s with
            fb := t.fb
            cx := t.cx
            cy := y
            resp := ⟨.ok, 0#16⟩
            burstBusy := u && s.cfg.burstMode
            dc := if u then s.cfg.dcLevelData else s.dc
            trace := s.trace ++ (if u then flushEvents s.cfg t.fb else [])
            answers := if u then rest else s.answers } ∧
      t.fb.wf fbBytes = true ∧ t.cx.toNat = x.toNat + s.tlen.toNat * charAdvance s.cfg f p ∧
      ∀ X Y, X < 128 → Y < 64 →
        pixelAt t X Y = textPainted s f c p x.toNat y.toNat (fun _ _ => isWhite b) X Y

/-! ## Page sequencer -/

/-- R171 to R173, R176, R177: a page-addressed FLUSH whose answers are all true sends its 64 events in order and answers OK;
one whose first false answer is the `k`-th (from 0) sends the events of the transfers before it and its own, nothing after,
and answers the error of its phase. Nothing else changes. -/
def Obligations.FlushFollowsThePageProtocol : Prop :=
  ∀ (s : State) (rest : List Bool), s.burstBusy = false → s.cfg.burstMode = false →
    (s.answers = okAnswers 32 rest →
      exec .flush s = .next { s with
        dc := s.cfg.dcLevelData
        trace := s.trace ++ goodTransfers s.cfg s.fb 32
        answers := rest
        resp := ⟨.ok, 0#16⟩ } ∧ (goodTransfers s.cfg s.fb 32).length = 64) ∧
    (∀ k, k < 32 → s.answers = okAnswers k (false :: rest) →
      exec .flush s = .next { s with
        dc := transferLevel s.cfg k
        trace := s.trace ++ goodTransfers s.cfg s.fb k ++ transferEvents s.cfg s.fb k false
        answers := rest
        resp := ⟨transferStatus k, 0#16⟩ })

/-- R173, R179: a burst-mode FLUSH sends the whole framebuffer as one burst; answered true it leaves the transfer in flight
and answers OK, answered false it answers DataTransmitError and BURST_BUSY stays 0. -/
def Obligations.BurstFlushStartsOneTransfer : Prop :=
  ∀ (s : State) (a : Bool) (rest : List Bool), s.burstBusy = false → s.cfg.burstMode = true → s.answers = a :: rest →
    exec .flush s = .next { s with
      dc := s.cfg.dcLevelData
      trace := s.trace ++ burstEvents s.fb a
      answers := rest
      burstBusy := a
      resp := if a then ⟨.ok, 0#16⟩ else ⟨.dataTransmitError, 0#16⟩ }

/-- R180 to R182: an INIT whose answers are all true pulses the reset line if the strap says so, sends the script of the
mode, clears the framebuffer, flushes it, sets the cursor to (0, 0) and answers OK; in burst mode a transfer is then in
flight. -/
def Obligations.InitRunsTheWholeSequence : Prop :=
  ∀ (s : State) (rest : List Bool), s.burstBusy = false → s.fb.wf fbBytes = true →
    s.answers = okAnswers ((script s.cfg).length + flushDraws s.cfg) rest →
    exec .init s = .next { s with
      fb := []
      cx := 0#8
      cy := 0#8
      rst := pulseLevel s.cfg s.rst
      dc := s.cfg.dcLevelData
      trace := s.trace ++ pulseEvents s.cfg ++ scriptEvents (script s.cfg) ++ flushEvents s.cfg []
      answers := rest
      burstBusy := s.cfg.burstMode
      resp := ⟨.ok, 0#16⟩ }

/-- R180: an INIT whose script fails at byte `b` answers UnknownError and leaves the framebuffer and the cursor. -/
def Obligations.InitStopsAtAFailingScriptByte : Prop :=
  ∀ (s : State) (l l' : List Byte) (b : Byte) (rest : List Bool), s.burstBusy = false →
    script s.cfg = l ++ b :: l' → s.answers = okAnswers l.length (false :: rest) →
    exec .init s = .next { s with
      rst := pulseLevel s.cfg s.rst
      dc := s.cfg.dcLevelCmd
      trace := s.trace ++ pulseEvents s.cfg ++ scriptEvents l ++ [.dc .cmd, .cmd b false]
      answers := rest
      resp := ⟨.unknownError, 0#16⟩ }

/-- R180 corner case: an INIT whose initial flush fails leaves the framebuffer cleared and the cursor unchanged, and answers
the flush's error, in either mode. -/
def Obligations.InitStopsAtAFailingFlush : Prop :=
  ∀ (s : State) (rest : List Bool), s.burstBusy = false → s.fb.wf fbBytes = true →
    (s.cfg.burstMode = false → ∀ k, k < 32 → s.answers = okAnswers ((script s.cfg).length + k) (false :: rest) →
      exec .init s = .next { s with
        fb := []
        rst := pulseLevel s.cfg s.rst
        dc := transferLevel s.cfg k
        trace := s.trace ++ pulseEvents s.cfg ++ scriptEvents (script s.cfg) ++ goodTransfers s.cfg [] k ++
          transferEvents s.cfg [] k false
        answers := rest
        resp := ⟨transferStatus k, 0#16⟩ }) ∧
    (s.cfg.burstMode = true → s.answers = okAnswers (script s.cfg).length (false :: rest) →
      exec .init s = .next { s with
        fb := []
        rst := pulseLevel s.cfg s.rst
        dc := s.cfg.dcLevelData
        trace := s.trace ++ pulseEvents s.cfg ++ scriptEvents (script s.cfg) ++ burstEvents [] false
        answers := rest
        resp := ⟨.dataTransmitError, 0#16⟩ })

/-- R183: IRQ_ACK clears both flags and changes nothing else but RESP. -/
def Obligations.IrqAckClearsBothFlags : Prop :=
  ∀ s : State, ∃ t, exec .irqAck s = .next t ∧
    t = { s with irqf0 := false, irqf1 := false, resp := ⟨.ok, 0#16⟩ } ∧ irqLine t = false

/-- R184: STATUS_READ answers TLEN in bits [8:0], IRQF0 in 9, IRQF1 in 10, BURST_BUSY in 11 and 0 above, and changes nothing
but RESP. -/
def Obligations.StatusReadAnswersTheStatusWord : Prop :=
  ∀ s : State, ∃ t, exec .statusRead s = .next t ∧ t = { s with resp := ⟨.ok, t.resp.data⟩ } ∧
    t.resp.data.extractLsb' 0 9 = s.tlen ∧ t.resp.data.getLsbD 9 = s.irqf0 ∧ t.resp.data.getLsbD 10 = s.irqf1 ∧
    t.resp.data.getLsbD 11 = s.burstBusy ∧ t.resp.data.extractLsb' 12 4 = 0#4

/-! ## Hazards and faults -/

/-- R113, R244: with a transfer in flight every framebuffer write faults and ends its command, RESP unwritten; a command that
fails before its first write does not fault. -/
def Obligations.WriteDuringBurstFaults : Prop :=
  ∀ s : State, s.burstBusy = true →
    (∀ (i : Nat) (v : Byte), (fbWrite i v s).final = { s with fault := some .fbWriteDuringBurst }) ∧
    (∀ (x y : Byte) (c : Color), x.toNat < 128 → y.toNat < 64 →
      exec (.drawPixel x y c) s = .next { s with fault := some .fbWriteDuringBurst }) ∧
    (∀ c : Color, exec (.fill c) s = .next { s with fault := some .fbWriteDuringBurst }) ∧
    (∀ (ch : Byte) (f : Font) (c : Color) (p : Bool), s.cy.toNat < 64 →
      FitsAt s.cfg.fitCheck s.cx.toNat s.cy.toNat f → p = true ∨ 0 < rowsHeld s.glyph ch f →
      exec (.writeChar ch f c p) s = .next { s with fault := some .fbWriteDuringBurst }) ∧
    (∀ (ch : Byte) (f : Font) (c : Color), FitsAt s.cfg.fitCheck s.cx.toNat s.cy.toNat f →
      rowsHeld s.glyph ch f = 0 →
      exec (.writeChar ch f c false) s = .next { s with resp := ⟨.pixelOutOfBounds, 0#16⟩ }) ∧
    (∀ (f : Font) (c : Color) (p : Bool), s.cy.toNat < 64 →
      FitsAt s.cfg.fitCheck s.cx.toNat s.cy.toNat f → 0 < s.tlen.toNat →
      p = true ∨ 0 < rowsHeld s.glyph (s.text.read 0) f →
      exec (.writeString f c p) s = .next { s with fault := some .fbWriteDuringBurst }) ∧
    (∀ (f : Font) (x y : Byte) (b c : Color) (p u : Bool),
      exec (.write f x y b c p u) s = .next { s with fault := some .fbWriteDuringBurst })

/-- R172, R173, R192, R245, R246: with a transfer in flight a command byte, a data burst, a FLUSH and an INIT fault before
any event, a WRITE faults at its fill, and the eight commands that R246 leaves to the host complete and do not touch the
transfer. -/
def Obligations.TransferDuringBurstFaults : Prop :=
  ∀ s : State, s.burstBusy = true →
    (∀ b : Byte, (sendCmd b s).final = { s with fault := some .transferDuringBurst }) ∧
    (∀ off len : Nat, (sendData off len s).final = { s with fault := some .transferDuringBurst }) ∧
    exec .flush s = .next { s with fault := some .transferDuringBurst } ∧
    exec .init s = .next { s with fault := some .transferDuringBurst } ∧
    (∀ (f : Font) (x y : Byte) (b c : Color) (p u : Bool),
      exec (.write f x y b c p u) s = .next { s with fault := some .fbWriteDuringBurst }) ∧
    (∀ i : Instr, freeDuringBurst i = true →
      ∃ t, exec i s = .next t ∧ t.burstBusy = true ∧ t.fault = s.fault ∧ t.trace = s.trace ∧ t.fb = s.fb)

/-- R215, R216: without a transfer in flight no command faults; a command that faults leaves RESP and the transfer as they
were, and only a transfer in flight lets it. -/
def Obligations.FaultsNeedATransferInFlight : Prop :=
  ∀ (i : Instr) (s t : State), exec i s = .next t →
    (s.burstBusy = false → t.fault = s.fault) ∧
    (s.fault = none → t.fault ≠ none → s.burstBusy = true ∧ t.burstBusy = true ∧ t.resp = s.resp ∧ t.trace = s.trace)

/-! ## Rules about the whole machine -/

/-- R17, R23, R32, R71, R103: a step takes the first of the environment's actions and no other, and changes no parameter and
no glyph table. That the actions stand in a list of the state is the model's choice (log 1). -/
def Obligations.StepTakesOneActionAndKeepsTheParameters : Prop :=
  ∀ s t : State, step s = .next t → t.inputs = s.inputs.tail ∧ t.cfg = s.cfg ∧ t.glyph = s.glyph

/-- R20 to R22, R50, R59: who writes what. Only the drawing commands and INIT write the framebuffer; only SET_CURSOR, WRITE
and INIT write CY, and only they, WRITE_CHAR and WRITE_STRING write CX; only TEXT_CLEAR and TEXT_PUSH write TEXT or TLEN. -/
def Obligations.CommandsWriteOnlyTheirRegisters : Prop :=
  ∀ (i : Instr) (s t : State), exec i s = .next t →
    (writesFb i = false → t.fb = s.fb) ∧
    (writesCy i = false → t.cy = s.cy) ∧
    (writesCx i = false → t.cx = s.cx) ∧
    (writesText i = false → t.text = s.text ∧ t.tlen = s.tlen)

/-- R25, R190, R219: only IRQ_ACK changes a flag by a command, and it never sets one; a step that raises a flag is the engine's
completion of the transfer in flight, which raises both and the interrupt line. -/
def Obligations.FlagsRiseOnlyAtCompletion : Prop :=
  (∀ (i : Instr) (s t : State), exec i s = .next t → i ≠ .irqAck →
    t.irqf0 = s.irqf0 ∧ t.irqf1 = s.irqf1 ∧ irqLine t = irqLine s) ∧
  (∀ s t : State, step s = .next t → (s.irqf0 = false ∧ t.irqf0 = true) ∨ (s.irqf1 = false ∧ t.irqf1 = true) →
    s.burstBusy = true ∧ t.burstBusy = false ∧ t.irqf0 = true ∧ t.irqf1 = true ∧ irqLine t = true ∧
      t.trace = s.trace ++ [.burstDone] ∧ t.fb = s.fb ∧ t.resp = s.resp)

/-- R29, R26, R178: a command only appends to TRACE, and never clears BURST_BUSY; only FLUSH, INIT and WRITE with `u = 1`
emit, drive a line, draw an answer or start a transfer. -/
def Obligations.OnlyTransfersReachTheTransport : Prop :=
  ∀ (i : Instr) (s t : State), exec i s = .next t →
    (∃ l, t.trace = s.trace ++ l) ∧ (s.burstBusy = true → t.burstBusy = true) ∧
    (transfers i = false → t.trace = s.trace ∧ t.dc = s.dc ∧ t.rst = s.rst ∧ t.answers = s.answers ∧
      t.draws = s.draws ∧ t.burstBusy = s.burstBusy)

/-- R24, R216: a command that completes writes RESP, so that what RESP held before has no effect; a command that faults does
not write it. -/
def Obligations.RespIsWrittenUnlessFaulted : Prop :=
  ∀ (i : Instr) (s t : State), exec i s = .next t → s.fault = none →
    (t.fault = none → ∀ r, exec i (s.setResp r) = .next t) ∧
    (t.fault ≠ none → t.resp = s.resp ∧ ∀ r, exec i (s.setResp r) = .next (t.setResp r))

/-- R174: the poll budget has no effect: under another budget every command does the same. -/
def Obligations.PollBudgetIsUnobservable : Prop :=
  ∀ (i : Instr) (s t : State) (n : Nat), exec i s = .next t → exec i (withBudget n s) = .next (withBudget n t)

/-- R22, R34: the bytes of TEXT at and beyond TLEN have no effect: two blocks that differ only there do the same, and still
differ only there. -/
def Obligations.TextBeyondTlenIsUnobservable : Prop :=
  ∀ (i : Instr) (s t : State) (m : Memory), s.text.wf s.cfg.textMax = true → m.wf s.cfg.textMax = true →
    (∀ k, k < s.tlen.toNat → m.read k = s.text.read k) → exec i s = .next t →
    ∃ m', exec i { s with text := m } = .next { t with text := m' } ∧
      ∀ k, k < t.tlen.toNat → m'.read k = t.text.read k

/-! ## Invariants -/

/-- R20, R22, R50: every step keeps FB and TEXT in canonical form and inside their sizes, and TLEN at most TEXT_MAX. -/
def Obligations.StepKeepsStorageSound : Prop :=
  ∀ s t : State, StorageInv s → step s = .next t → StorageInv t

/-- R35: every value a command writes to CX is at most 129 and every value it writes to CY at most 63, from every state; so
every step keeps the bound. -/
def Obligations.CursorBound : Prop :=
  (∀ (i : Instr) (s t : State), exec i s = .next t →
    (t.cx = s.cx ∨ t.cx.toNat ≤ 129) ∧ (t.cy = s.cy ∨ t.cy.toNat ≤ 63)) ∧
  (∀ s t : State, CursorInv s → step s = .next t → CursorInv t)

/-- R26, R60, R179, R190: every step keeps this: a transfer in flight exists only in burst mode, and the framebuffer is still
the bytes the transfer was started with, which are the last event of TRACE. So a transfer that completes has sent the
framebuffer as it was at its start. -/
def Obligations.StepKeepsTheBurstSnapshot : Prop :=
  ∀ s t : State, BurstInv s → step s = .next t → BurstInv t

/-- R215: every step keeps this: the block is faulted only in burst mode with a transfer in flight. -/
def Obligations.StepKeepsFaultsInFlight : Prop :=
  ∀ s t : State, BurstInv s → FaultInv s → step s = .next t → FaultInv t

/-- R26, R184, R217: every step keeps this: in sync mode no transfer is in flight, no flag is set and nothing faults, so bits
[11:9] of the status word read 0. -/
def Obligations.StepKeepsSyncModeQuiet : Prop :=
  (∀ s t : State, SyncInv s → step s = .next t → SyncInv t) ∧
  (∀ s : State, SyncInv s → s.cfg.burstMode = false → (statusWord s).extractLsb' 9 3 = 0#3 ∧ irqLine s = false)

/-- R34: the invariants hold at reset. -/
def Obligations.InvariantsHoldAtReset : Prop :=
  StorageInv State.reset ∧ CursorInv State.reset ∧ BurstInv State.reset ∧ FaultInv State.reset ∧ SyncInv State.reset ∧
  State.reset.glyph.wellFormed = true

end
end

