-- ==== Sys2Proof/Laws/State.lean ====
section
/-! SUPPORT. One lemma per field per update of the state, so that no later proof unfolds a record update. -/

namespace Sys2Proof.Machine

section
variable (s : State)

@[simp] theorem State.setFb_fb (m : Memory) : (s.setFb m).fb = m := rfl
@[simp] theorem State.setFb_cx (m : Memory) : (s.setFb m).cx = s.cx := rfl
@[simp] theorem State.setFb_cy (m : Memory) : (s.setFb m).cy = s.cy := rfl
@[simp] theorem State.setFb_text (m : Memory) : (s.setFb m).text = s.text := rfl
@[simp] theorem State.setFb_tlen (m : Memory) : (s.setFb m).tlen = s.tlen := rfl
@[simp] theorem State.setFb_glyph (m : Memory) : (s.setFb m).glyph = s.glyph := rfl
@[simp] theorem State.setFb_resp (m : Memory) : (s.setFb m).resp = s.resp := rfl
@[simp] theorem State.setFb_irqf0 (m : Memory) : (s.setFb m).irqf0 = s.irqf0 := rfl
@[simp] theorem State.setFb_irqf1 (m : Memory) : (s.setFb m).irqf1 = s.irqf1 := rfl
@[simp] theorem State.setFb_burstBusy (m : Memory) : (s.setFb m).burstBusy = s.burstBusy := rfl
@[simp] theorem State.setFb_fault (m : Memory) : (s.setFb m).fault = s.fault := rfl
@[simp] theorem State.setFb_dc (m : Memory) : (s.setFb m).dc = s.dc := rfl
@[simp] theorem State.setFb_rst (m : Memory) : (s.setFb m).rst = s.rst := rfl
@[simp] theorem State.setFb_trace (m : Memory) : (s.setFb m).trace = s.trace := rfl
@[simp] theorem State.setFb_cfg (m : Memory) : (s.setFb m).cfg = s.cfg := rfl
@[simp] theorem State.setFb_inputs (m : Memory) : (s.setFb m).inputs = s.inputs := rfl
@[simp] theorem State.setFb_answers (m : Memory) : (s.setFb m).answers = s.answers := rfl
@[simp] theorem State.setFb_draws (m : Memory) : (s.setFb m).draws = s.draws := rfl
@[simp] theorem State.setFb_engineTurns (m : Memory) : (s.setFb m).engineTurns = s.engineTurns := rfl

@[simp] theorem State.setCx_fb (v : Byte) : (s.setCx v).fb = s.fb := rfl
@[simp] theorem State.setCx_cx (v : Byte) : (s.setCx v).cx = v := rfl
@[simp] theorem State.setCx_cy (v : Byte) : (s.setCx v).cy = s.cy := rfl
@[simp] theorem State.setCx_text (v : Byte) : (s.setCx v).text = s.text := rfl
@[simp] theorem State.setCx_tlen (v : Byte) : (s.setCx v).tlen = s.tlen := rfl
@[simp] theorem State.setCx_glyph (v : Byte) : (s.setCx v).glyph = s.glyph := rfl
@[simp] theorem State.setCx_resp (v : Byte) : (s.setCx v).resp = s.resp := rfl
@[simp] theorem State.setCx_irqf0 (v : Byte) : (s.setCx v).irqf0 = s.irqf0 := rfl
@[simp] theorem State.setCx_irqf1 (v : Byte) : (s.setCx v).irqf1 = s.irqf1 := rfl
@[simp] theorem State.setCx_burstBusy (v : Byte) : (s.setCx v).burstBusy = s.burstBusy := rfl
@[simp] theorem State.setCx_fault (v : Byte) : (s.setCx v).fault = s.fault := rfl
@[simp] theorem State.setCx_dc (v : Byte) : (s.setCx v).dc = s.dc := rfl
@[simp] theorem State.setCx_rst (v : Byte) : (s.setCx v).rst = s.rst := rfl
@[simp] theorem State.setCx_trace (v : Byte) : (s.setCx v).trace = s.trace := rfl
@[simp] theorem State.setCx_cfg (v : Byte) : (s.setCx v).cfg = s.cfg := rfl
@[simp] theorem State.setCx_inputs (v : Byte) : (s.setCx v).inputs = s.inputs := rfl
@[simp] theorem State.setCx_answers (v : Byte) : (s.setCx v).answers = s.answers := rfl
@[simp] theorem State.setCx_draws (v : Byte) : (s.setCx v).draws = s.draws := rfl
@[simp] theorem State.setCx_engineTurns (v : Byte) : (s.setCx v).engineTurns = s.engineTurns := rfl

@[simp] theorem State.setCursor_fb (x y : Byte) : (s.setCursor x y).fb = s.fb := rfl
@[simp] theorem State.setCursor_cx (x y : Byte) : (s.setCursor x y).cx = x := rfl
@[simp] theorem State.setCursor_cy (x y : Byte) : (s.setCursor x y).cy = y := rfl
@[simp] theorem State.setCursor_text (x y : Byte) : (s.setCursor x y).text = s.text := rfl
@[simp] theorem State.setCursor_tlen (x y : Byte) : (s.setCursor x y).tlen = s.tlen := rfl
@[simp] theorem State.setCursor_glyph (x y : Byte) : (s.setCursor x y).glyph = s.glyph := rfl
@[simp] theorem State.setCursor_resp (x y : Byte) : (s.setCursor x y).resp = s.resp := rfl
@[simp] theorem State.setCursor_irqf0 (x y : Byte) : (s.setCursor x y).irqf0 = s.irqf0 := rfl
@[simp] theorem State.setCursor_irqf1 (x y : Byte) : (s.setCursor x y).irqf1 = s.irqf1 := rfl
@[simp] theorem State.setCursor_burstBusy (x y : Byte) : (s.setCursor x y).burstBusy = s.burstBusy := rfl
@[simp] theorem State.setCursor_fault (x y : Byte) : (s.setCursor x y).fault = s.fault := rfl
@[simp] theorem State.setCursor_dc (x y : Byte) : (s.setCursor x y).dc = s.dc := rfl
@[simp] theorem State.setCursor_rst (x y : Byte) : (s.setCursor x y).rst = s.rst := rfl
@[simp] theorem State.setCursor_trace (x y : Byte) : (s.setCursor x y).trace = s.trace := rfl
@[simp] theorem State.setCursor_cfg (x y : Byte) : (s.setCursor x y).cfg = s.cfg := rfl
@[simp] theorem State.setCursor_inputs (x y : Byte) : (s.setCursor x y).inputs = s.inputs := rfl
@[simp] theorem State.setCursor_answers (x y : Byte) : (s.setCursor x y).answers = s.answers := rfl
@[simp] theorem State.setCursor_draws (x y : Byte) : (s.setCursor x y).draws = s.draws := rfl
@[simp] theorem State.setCursor_engineTurns (x y : Byte) : (s.setCursor x y).engineTurns = s.engineTurns := rfl

@[simp] theorem State.setText_fb (m : Memory) (n : BitVec 9) : (s.setText m n).fb = s.fb := rfl
@[simp] theorem State.setText_cx (m : Memory) (n : BitVec 9) : (s.setText m n).cx = s.cx := rfl
@[simp] theorem State.setText_cy (m : Memory) (n : BitVec 9) : (s.setText m n).cy = s.cy := rfl
@[simp] theorem State.setText_text (m : Memory) (n : BitVec 9) : (s.setText m n).text = m := rfl
@[simp] theorem State.setText_tlen (m : Memory) (n : BitVec 9) : (s.setText m n).tlen = n := rfl
@[simp] theorem State.setText_glyph (m : Memory) (n : BitVec 9) : (s.setText m n).glyph = s.glyph := rfl
@[simp] theorem State.setText_resp (m : Memory) (n : BitVec 9) : (s.setText m n).resp = s.resp := rfl
@[simp] theorem State.setText_irqf0 (m : Memory) (n : BitVec 9) : (s.setText m n).irqf0 = s.irqf0 := rfl
@[simp] theorem State.setText_irqf1 (m : Memory) (n : BitVec 9) : (s.setText m n).irqf1 = s.irqf1 := rfl
@[simp] theorem State.setText_burstBusy (m : Memory) (n : BitVec 9) : (s.setText m n).burstBusy = s.burstBusy := rfl
@[simp] theorem State.setText_fault (m : Memory) (n : BitVec 9) : (s.setText m n).fault = s.fault := rfl
@[simp] theorem State.setText_dc (m : Memory) (n : BitVec 9) : (s.setText m n).dc = s.dc := rfl
@[simp] theorem State.setText_rst (m : Memory) (n : BitVec 9) : (s.setText m n).rst = s.rst := rfl
@[simp] theorem State.setText_trace (m : Memory) (n : BitVec 9) : (s.setText m n).trace = s.trace := rfl
@[simp] theorem State.setText_cfg (m : Memory) (n : BitVec 9) : (s.setText m n).cfg = s.cfg := rfl
@[simp] theorem State.setText_inputs (m : Memory) (n : BitVec 9) : (s.setText m n).inputs = s.inputs := rfl
@[simp] theorem State.setText_answers (m : Memory) (n : BitVec 9) : (s.setText m n).answers = s.answers := rfl
@[simp] theorem State.setText_draws (m : Memory) (n : BitVec 9) : (s.setText m n).draws = s.draws := rfl
@[simp] theorem State.setText_engineTurns (m : Memory) (n : BitVec 9) : (s.setText m n).engineTurns = s.engineTurns := rfl

@[simp] theorem State.setResp_fb (r : Resp) : (s.setResp r).fb = s.fb := rfl
@[simp] theorem State.setResp_cx (r : Resp) : (s.setResp r).cx = s.cx := rfl
@[simp] theorem State.setResp_cy (r : Resp) : (s.setResp r).cy = s.cy := rfl
@[simp] theorem State.setResp_text (r : Resp) : (s.setResp r).text = s.text := rfl
@[simp] theorem State.setResp_tlen (r : Resp) : (s.setResp r).tlen = s.tlen := rfl
@[simp] theorem State.setResp_glyph (r : Resp) : (s.setResp r).glyph = s.glyph := rfl
@[simp] theorem State.setResp_resp (r : Resp) : (s.setResp r).resp = r := rfl
@[simp] theorem State.setResp_irqf0 (r : Resp) : (s.setResp r).irqf0 = s.irqf0 := rfl
@[simp] theorem State.setResp_irqf1 (r : Resp) : (s.setResp r).irqf1 = s.irqf1 := rfl
@[simp] theorem State.setResp_burstBusy (r : Resp) : (s.setResp r).burstBusy = s.burstBusy := rfl
@[simp] theorem State.setResp_fault (r : Resp) : (s.setResp r).fault = s.fault := rfl
@[simp] theorem State.setResp_dc (r : Resp) : (s.setResp r).dc = s.dc := rfl
@[simp] theorem State.setResp_rst (r : Resp) : (s.setResp r).rst = s.rst := rfl
@[simp] theorem State.setResp_trace (r : Resp) : (s.setResp r).trace = s.trace := rfl
@[simp] theorem State.setResp_cfg (r : Resp) : (s.setResp r).cfg = s.cfg := rfl
@[simp] theorem State.setResp_inputs (r : Resp) : (s.setResp r).inputs = s.inputs := rfl
@[simp] theorem State.setResp_answers (r : Resp) : (s.setResp r).answers = s.answers := rfl
@[simp] theorem State.setResp_draws (r : Resp) : (s.setResp r).draws = s.draws := rfl
@[simp] theorem State.setResp_engineTurns (r : Resp) : (s.setResp r).engineTurns = s.engineTurns := rfl

@[simp] theorem State.setIrq_fb (v : Bool) : (s.setIrq v).fb = s.fb := rfl
@[simp] theorem State.setIrq_cx (v : Bool) : (s.setIrq v).cx = s.cx := rfl
@[simp] theorem State.setIrq_cy (v : Bool) : (s.setIrq v).cy = s.cy := rfl
@[simp] theorem State.setIrq_text (v : Bool) : (s.setIrq v).text = s.text := rfl
@[simp] theorem State.setIrq_tlen (v : Bool) : (s.setIrq v).tlen = s.tlen := rfl
@[simp] theorem State.setIrq_glyph (v : Bool) : (s.setIrq v).glyph = s.glyph := rfl
@[simp] theorem State.setIrq_resp (v : Bool) : (s.setIrq v).resp = s.resp := rfl
@[simp] theorem State.setIrq_irqf0 (v : Bool) : (s.setIrq v).irqf0 = v := rfl
@[simp] theorem State.setIrq_irqf1 (v : Bool) : (s.setIrq v).irqf1 = v := rfl
@[simp] theorem State.setIrq_burstBusy (v : Bool) : (s.setIrq v).burstBusy = s.burstBusy := rfl
@[simp] theorem State.setIrq_fault (v : Bool) : (s.setIrq v).fault = s.fault := rfl
@[simp] theorem State.setIrq_dc (v : Bool) : (s.setIrq v).dc = s.dc := rfl
@[simp] theorem State.setIrq_rst (v : Bool) : (s.setIrq v).rst = s.rst := rfl
@[simp] theorem State.setIrq_trace (v : Bool) : (s.setIrq v).trace = s.trace := rfl
@[simp] theorem State.setIrq_cfg (v : Bool) : (s.setIrq v).cfg = s.cfg := rfl
@[simp] theorem State.setIrq_inputs (v : Bool) : (s.setIrq v).inputs = s.inputs := rfl
@[simp] theorem State.setIrq_answers (v : Bool) : (s.setIrq v).answers = s.answers := rfl
@[simp] theorem State.setIrq_draws (v : Bool) : (s.setIrq v).draws = s.draws := rfl
@[simp] theorem State.setIrq_engineTurns (v : Bool) : (s.setIrq v).engineTurns = s.engineTurns := rfl

@[simp] theorem State.setBusy_fb (v : Bool) : (s.setBusy v).fb = s.fb := rfl
@[simp] theorem State.setBusy_cx (v : Bool) : (s.setBusy v).cx = s.cx := rfl
@[simp] theorem State.setBusy_cy (v : Bool) : (s.setBusy v).cy = s.cy := rfl
@[simp] theorem State.setBusy_text (v : Bool) : (s.setBusy v).text = s.text := rfl
@[simp] theorem State.setBusy_tlen (v : Bool) : (s.setBusy v).tlen = s.tlen := rfl
@[simp] theorem State.setBusy_glyph (v : Bool) : (s.setBusy v).glyph = s.glyph := rfl
@[simp] theorem State.setBusy_resp (v : Bool) : (s.setBusy v).resp = s.resp := rfl
@[simp] theorem State.setBusy_irqf0 (v : Bool) : (s.setBusy v).irqf0 = s.irqf0 := rfl
@[simp] theorem State.setBusy_irqf1 (v : Bool) : (s.setBusy v).irqf1 = s.irqf1 := rfl
@[simp] theorem State.setBusy_burstBusy (v : Bool) : (s.setBusy v).burstBusy = v := rfl
@[simp] theorem State.setBusy_fault (v : Bool) : (s.setBusy v).fault = s.fault := rfl
@[simp] theorem State.setBusy_dc (v : Bool) : (s.setBusy v).dc = s.dc := rfl
@[simp] theorem State.setBusy_rst (v : Bool) : (s.setBusy v).rst = s.rst := rfl
@[simp] theorem State.setBusy_trace (v : Bool) : (s.setBusy v).trace = s.trace := rfl
@[simp] theorem State.setBusy_cfg (v : Bool) : (s.setBusy v).cfg = s.cfg := rfl
@[simp] theorem State.setBusy_inputs (v : Bool) : (s.setBusy v).inputs = s.inputs := rfl
@[simp] theorem State.setBusy_answers (v : Bool) : (s.setBusy v).answers = s.answers := rfl
@[simp] theorem State.setBusy_draws (v : Bool) : (s.setBusy v).draws = s.draws := rfl
@[simp] theorem State.setBusy_engineTurns (v : Bool) : (s.setBusy v).engineTurns = s.engineTurns := rfl

@[simp] theorem State.setInputs_fb (l : List Input) : (s.setInputs l).fb = s.fb := rfl
@[simp] theorem State.setInputs_cx (l : List Input) : (s.setInputs l).cx = s.cx := rfl
@[simp] theorem State.setInputs_cy (l : List Input) : (s.setInputs l).cy = s.cy := rfl
@[simp] theorem State.setInputs_text (l : List Input) : (s.setInputs l).text = s.text := rfl
@[simp] theorem State.setInputs_tlen (l : List Input) : (s.setInputs l).tlen = s.tlen := rfl
@[simp] theorem State.setInputs_glyph (l : List Input) : (s.setInputs l).glyph = s.glyph := rfl
@[simp] theorem State.setInputs_resp (l : List Input) : (s.setInputs l).resp = s.resp := rfl
@[simp] theorem State.setInputs_irqf0 (l : List Input) : (s.setInputs l).irqf0 = s.irqf0 := rfl
@[simp] theorem State.setInputs_irqf1 (l : List Input) : (s.setInputs l).irqf1 = s.irqf1 := rfl
@[simp] theorem State.setInputs_burstBusy (l : List Input) : (s.setInputs l).burstBusy = s.burstBusy := rfl
@[simp] theorem State.setInputs_fault (l : List Input) : (s.setInputs l).fault = s.fault := rfl
@[simp] theorem State.setInputs_dc (l : List Input) : (s.setInputs l).dc = s.dc := rfl
@[simp] theorem State.setInputs_rst (l : List Input) : (s.setInputs l).rst = s.rst := rfl
@[simp] theorem State.setInputs_trace (l : List Input) : (s.setInputs l).trace = s.trace := rfl
@[simp] theorem State.setInputs_cfg (l : List Input) : (s.setInputs l).cfg = s.cfg := rfl
@[simp] theorem State.setInputs_inputs (l : List Input) : (s.setInputs l).inputs = l := rfl
@[simp] theorem State.setInputs_answers (l : List Input) : (s.setInputs l).answers = s.answers := rfl
@[simp] theorem State.setInputs_draws (l : List Input) : (s.setInputs l).draws = s.draws := rfl
@[simp] theorem State.setInputs_engineTurns (l : List Input) : (s.setInputs l).engineTurns = s.engineTurns := rfl

@[simp] theorem State.emit_fb (e : Event) : (s.emit e).fb = s.fb := rfl
@[simp] theorem State.emit_cx (e : Event) : (s.emit e).cx = s.cx := rfl
@[simp] theorem State.emit_cy (e : Event) : (s.emit e).cy = s.cy := rfl
@[simp] theorem State.emit_text (e : Event) : (s.emit e).text = s.text := rfl
@[simp] theorem State.emit_tlen (e : Event) : (s.emit e).tlen = s.tlen := rfl
@[simp] theorem State.emit_glyph (e : Event) : (s.emit e).glyph = s.glyph := rfl
@[simp] theorem State.emit_resp (e : Event) : (s.emit e).resp = s.resp := rfl
@[simp] theorem State.emit_irqf0 (e : Event) : (s.emit e).irqf0 = s.irqf0 := rfl
@[simp] theorem State.emit_irqf1 (e : Event) : (s.emit e).irqf1 = s.irqf1 := rfl
@[simp] theorem State.emit_burstBusy (e : Event) : (s.emit e).burstBusy = s.burstBusy := rfl
@[simp] theorem State.emit_fault (e : Event) : (s.emit e).fault = s.fault := rfl
@[simp] theorem State.emit_dc (e : Event) : (s.emit e).dc = s.dc := rfl
@[simp] theorem State.emit_rst (e : Event) : (s.emit e).rst = s.rst := rfl
@[simp] theorem State.emit_trace (e : Event) : (s.emit e).trace = s.trace ++ [e] := rfl
@[simp] theorem State.emit_cfg (e : Event) : (s.emit e).cfg = s.cfg := rfl
@[simp] theorem State.emit_inputs (e : Event) : (s.emit e).inputs = s.inputs := rfl
@[simp] theorem State.emit_answers (e : Event) : (s.emit e).answers = s.answers := rfl
@[simp] theorem State.emit_draws (e : Event) : (s.emit e).draws = s.draws := rfl
@[simp] theorem State.emit_engineTurns (e : Event) : (s.emit e).engineTurns = s.engineTurns := rfl

@[simp] theorem State.driveDc_fb (m : LineMode) : (s.driveDc m).fb = s.fb := rfl
@[simp] theorem State.driveDc_cx (m : LineMode) : (s.driveDc m).cx = s.cx := rfl
@[simp] theorem State.driveDc_cy (m : LineMode) : (s.driveDc m).cy = s.cy := rfl
@[simp] theorem State.driveDc_text (m : LineMode) : (s.driveDc m).text = s.text := rfl
@[simp] theorem State.driveDc_tlen (m : LineMode) : (s.driveDc m).tlen = s.tlen := rfl
@[simp] theorem State.driveDc_glyph (m : LineMode) : (s.driveDc m).glyph = s.glyph := rfl
@[simp] theorem State.driveDc_resp (m : LineMode) : (s.driveDc m).resp = s.resp := rfl
@[simp] theorem State.driveDc_irqf0 (m : LineMode) : (s.driveDc m).irqf0 = s.irqf0 := rfl
@[simp] theorem State.driveDc_irqf1 (m : LineMode) : (s.driveDc m).irqf1 = s.irqf1 := rfl
@[simp] theorem State.driveDc_burstBusy (m : LineMode) : (s.driveDc m).burstBusy = s.burstBusy := rfl
@[simp] theorem State.driveDc_fault (m : LineMode) : (s.driveDc m).fault = s.fault := rfl
@[simp] theorem State.driveDc_dc (m : LineMode) : (s.driveDc m).dc = dcLevel s.cfg m := rfl
@[simp] theorem State.driveDc_rst (m : LineMode) : (s.driveDc m).rst = s.rst := rfl
@[simp] theorem State.driveDc_trace (m : LineMode) : (s.driveDc m).trace = s.trace ++ [.dc m] := rfl
@[simp] theorem State.driveDc_cfg (m : LineMode) : (s.driveDc m).cfg = s.cfg := rfl
@[simp] theorem State.driveDc_inputs (m : LineMode) : (s.driveDc m).inputs = s.inputs := rfl
@[simp] theorem State.driveDc_answers (m : LineMode) : (s.driveDc m).answers = s.answers := rfl
@[simp] theorem State.driveDc_draws (m : LineMode) : (s.driveDc m).draws = s.draws := rfl
@[simp] theorem State.driveDc_engineTurns (m : LineMode) : (s.driveDc m).engineTurns = s.engineTurns := rfl

@[simp] theorem State.driveRst_fb (v : Bool) : (s.driveRst v).fb = s.fb := rfl
@[simp] theorem State.driveRst_cx (v : Bool) : (s.driveRst v).cx = s.cx := rfl
@[simp] theorem State.driveRst_cy (v : Bool) : (s.driveRst v).cy = s.cy := rfl
@[simp] theorem State.driveRst_text (v : Bool) : (s.driveRst v).text = s.text := rfl
@[simp] theorem State.driveRst_tlen (v : Bool) : (s.driveRst v).tlen = s.tlen := rfl
@[simp] theorem State.driveRst_glyph (v : Bool) : (s.driveRst v).glyph = s.glyph := rfl
@[simp] theorem State.driveRst_resp (v : Bool) : (s.driveRst v).resp = s.resp := rfl
@[simp] theorem State.driveRst_irqf0 (v : Bool) : (s.driveRst v).irqf0 = s.irqf0 := rfl
@[simp] theorem State.driveRst_irqf1 (v : Bool) : (s.driveRst v).irqf1 = s.irqf1 := rfl
@[simp] theorem State.driveRst_burstBusy (v : Bool) : (s.driveRst v).burstBusy = s.burstBusy := rfl
@[simp] theorem State.driveRst_fault (v : Bool) : (s.driveRst v).fault = s.fault := rfl
@[simp] theorem State.driveRst_dc (v : Bool) : (s.driveRst v).dc = s.dc := rfl
@[simp] theorem State.driveRst_rst (v : Bool) : (s.driveRst v).rst = v := rfl
@[simp] theorem State.driveRst_trace (v : Bool) : (s.driveRst v).trace = s.trace ++ [.rst v] := rfl
@[simp] theorem State.driveRst_cfg (v : Bool) : (s.driveRst v).cfg = s.cfg := rfl
@[simp] theorem State.driveRst_inputs (v : Bool) : (s.driveRst v).inputs = s.inputs := rfl
@[simp] theorem State.driveRst_answers (v : Bool) : (s.driveRst v).answers = s.answers := rfl
@[simp] theorem State.driveRst_draws (v : Bool) : (s.driveRst v).draws = s.draws := rfl
@[simp] theorem State.driveRst_engineTurns (v : Bool) : (s.driveRst v).engineTurns = s.engineTurns := rfl

@[simp] theorem State.raise_fb (r : FaultReason) : (s.raise r).fb = s.fb := rfl
@[simp] theorem State.raise_cx (r : FaultReason) : (s.raise r).cx = s.cx := rfl
@[simp] theorem State.raise_cy (r : FaultReason) : (s.raise r).cy = s.cy := rfl
@[simp] theorem State.raise_text (r : FaultReason) : (s.raise r).text = s.text := rfl
@[simp] theorem State.raise_tlen (r : FaultReason) : (s.raise r).tlen = s.tlen := rfl
@[simp] theorem State.raise_glyph (r : FaultReason) : (s.raise r).glyph = s.glyph := rfl
@[simp] theorem State.raise_resp (r : FaultReason) : (s.raise r).resp = s.resp := rfl
@[simp] theorem State.raise_irqf0 (r : FaultReason) : (s.raise r).irqf0 = s.irqf0 := rfl
@[simp] theorem State.raise_irqf1 (r : FaultReason) : (s.raise r).irqf1 = s.irqf1 := rfl
@[simp] theorem State.raise_burstBusy (r : FaultReason) : (s.raise r).burstBusy = s.burstBusy := rfl
@[simp] theorem State.raise_fault (r : FaultReason) : (s.raise r).fault = some r := rfl
@[simp] theorem State.raise_dc (r : FaultReason) : (s.raise r).dc = s.dc := rfl
@[simp] theorem State.raise_rst (r : FaultReason) : (s.raise r).rst = s.rst := rfl
@[simp] theorem State.raise_trace (r : FaultReason) : (s.raise r).trace = s.trace := rfl
@[simp] theorem State.raise_cfg (r : FaultReason) : (s.raise r).cfg = s.cfg := rfl
@[simp] theorem State.raise_inputs (r : FaultReason) : (s.raise r).inputs = s.inputs := rfl
@[simp] theorem State.raise_answers (r : FaultReason) : (s.raise r).answers = s.answers := rfl
@[simp] theorem State.raise_draws (r : FaultReason) : (s.raise r).draws = s.draws := rfl
@[simp] theorem State.raise_engineTurns (r : FaultReason) : (s.raise r).engineTurns = s.engineTurns := rfl

@[simp] theorem State.applyReset_fb : s.applyReset.fb = State.reset.fb := rfl
@[simp] theorem State.applyReset_cx : s.applyReset.cx = State.reset.cx := rfl
@[simp] theorem State.applyReset_cy : s.applyReset.cy = State.reset.cy := rfl
@[simp] theorem State.applyReset_text : s.applyReset.text = State.reset.text := rfl
@[simp] theorem State.applyReset_tlen : s.applyReset.tlen = State.reset.tlen := rfl
@[simp] theorem State.applyReset_glyph : s.applyReset.glyph = s.glyph := rfl
@[simp] theorem State.applyReset_resp : s.applyReset.resp = State.reset.resp := rfl
@[simp] theorem State.applyReset_irqf0 : s.applyReset.irqf0 = State.reset.irqf0 := rfl
@[simp] theorem State.applyReset_irqf1 : s.applyReset.irqf1 = State.reset.irqf1 := rfl
@[simp] theorem State.applyReset_burstBusy : s.applyReset.burstBusy = State.reset.burstBusy := rfl
@[simp] theorem State.applyReset_fault : s.applyReset.fault = State.reset.fault := rfl
@[simp] theorem State.applyReset_dc : s.applyReset.dc = State.reset.dc := rfl
@[simp] theorem State.applyReset_rst : s.applyReset.rst = State.reset.rst := rfl
@[simp] theorem State.applyReset_trace : s.applyReset.trace = State.reset.trace := rfl
@[simp] theorem State.applyReset_cfg : s.applyReset.cfg = s.cfg := rfl
@[simp] theorem State.applyReset_inputs : s.applyReset.inputs = s.inputs := rfl
@[simp] theorem State.applyReset_answers : s.applyReset.answers = s.answers := rfl
@[simp] theorem State.applyReset_draws : s.applyReset.draws = s.draws := rfl
@[simp] theorem State.applyReset_engineTurns : s.applyReset.engineTurns = s.engineTurns := rfl

end

end Sys2Proof.Machine
end

