-- ==== Sys2Proof/Laws/Memory.lean ====
section
/-! SUPPORT. The laws of a byte memory: a read after a write, the canonical form and that every write keeps it, and that
two memories in canonical form with the same bytes are equal. -/

namespace Sys2Proof.Machine

@[simp] theorem Memory.read_nil (a : Nat) : Memory.read [] a = 0#8 := rfl

theorem Memory.read_cons (k : Nat) (w : Byte) (rest : Memory) (a : Nat) :
    Memory.read ((k, w) :: rest) a = if k = a then w else Memory.read rest a := rfl

@[simp] theorem Memory.wfFrom_nil (lo hi : Nat) : Memory.wfFrom lo hi [] = true := rfl

@[simp] theorem Memory.wf_nil (size : Nat) : Memory.wf size [] = true := rfl

theorem Memory.wfFrom_cons {lo hi k : Nat} {w : Byte} {rest : Memory} :
    Memory.wfFrom lo hi ((k, w) :: rest) = true ↔
      lo ≤ k ∧ k < hi ∧ w ≠ 0#8 ∧ Memory.wfFrom (k + 1) hi rest = true := by
  simp [Memory.wfFrom, and_assoc]

/-- The canonical form above a bound holds above every lower bound. -/
theorem Memory.wfFrom_mono {lo lo' hi : Nat} (h : lo' ≤ lo) {m : Memory} (hm : Memory.wfFrom lo hi m = true) :
    Memory.wfFrom lo' hi m = true := by
  match m with
  | [] => rfl
  | (k, w) :: rest =>
    rw [Memory.wfFrom_cons] at hm ⊢
    exact ⟨by omega, hm.2⟩

/-- Below its bound a memory in canonical form has no cell. -/
theorem Memory.read_below {lo hi : Nat} {m : Memory} (hm : Memory.wfFrom lo hi m = true) {a : Nat} (h : a < lo) :
    m.read a = 0#8 := by
  induction m generalizing lo with
  | nil => rfl
  | cons c rest ih =>
    obtain ⟨k, w⟩ := c
    rw [Memory.wfFrom_cons] at hm
    rw [Memory.read_cons, if_neg (by omega)]
    exact ih hm.2.2.2 (by omega)

/-- At and above its size a memory in canonical form has no cell. -/
theorem Memory.read_above {lo hi : Nat} {m : Memory} (hm : Memory.wfFrom lo hi m = true) {a : Nat} (h : hi ≤ a) :
    m.read a = 0#8 := by
  induction m generalizing lo with
  | nil => rfl
  | cons c rest ih =>
    obtain ⟨k, w⟩ := c
    rw [Memory.wfFrom_cons] at hm
    rw [Memory.read_cons, if_neg (by omega)]
    exact ih hm.2.2.2

/-- A write leaves every other address alone; this needs no canonical form. -/
theorem Memory.read_write_other (m : Memory) {a b : Nat} (v : Byte) (h : b ≠ a) :
    (m.write a v).read b = m.read b := by
  induction m with
  | nil => by_cases hv : v = 0#8 <;> simp [Memory.write, hv, Memory.read_cons, Ne.symm h]
  | cons c rest ih =>
    obtain ⟨k, w⟩ := c
    simp only [Memory.write]
    split_ifs with h1 h2 h3 h4
    · rfl
    · rw [Memory.read_cons, if_neg (Ne.symm h)]
    · rw [Memory.read_cons, if_neg (by omega)]
    · rw [Memory.read_cons, if_neg (Ne.symm h), Memory.read_cons, if_neg (by omega)]
    · rw [Memory.read_cons, Memory.read_cons, ih]

/-- A read after a write to the same address gives the byte written. -/
theorem Memory.read_write_same {lo hi : Nat} {m : Memory} (hm : Memory.wfFrom lo hi m = true) (a : Nat) (v : Byte) :
    (m.write a v).read a = v := by
  induction m generalizing lo with
  | nil => by_cases hv : v = 0#8 <;> simp [Memory.write, hv, Memory.read_cons]
  | cons c rest ih =>
    obtain ⟨k, w⟩ := c
    have hw := hm
    rw [Memory.wfFrom_cons] at hm
    simp only [Memory.write]
    split_ifs with h1 h2 h3 h4
    · rw [h2, Memory.read_cons, if_neg (by omega), Memory.read_below hm.2.2.2 (by omega)]
    · rw [Memory.read_cons, if_pos rfl]
    · rw [h4, Memory.read_below hm.2.2.2 (by omega)]
    · rw [Memory.read_cons, if_pos rfl]
    · rw [Memory.read_cons, if_neg (by omega), ih hm.2.2.2]

/-- A write inside the memory keeps the canonical form. -/
theorem Memory.write_wfFrom {lo hi : Nat} {m : Memory} (hm : Memory.wfFrom lo hi m = true) {a : Nat} (v : Byte)
    (hlo : lo ≤ a) (hhi : a < hi) : Memory.wfFrom lo hi (m.write a v) = true := by
  induction m generalizing lo with
  | nil =>
    simp only [Memory.write]
    split_ifs with hv
    · rfl
    · rw [Memory.wfFrom_cons]
      exact ⟨hlo, hhi, hv, rfl⟩
  | cons c rest ih =>
    obtain ⟨k, w⟩ := c
    have hw := hm
    rw [Memory.wfFrom_cons] at hm
    simp only [Memory.write]
    split_ifs with h1 h2 h3 h4
    · exact hw
    · rw [Memory.wfFrom_cons]
      refine ⟨hlo, hhi, h2, ?_⟩
      rw [Memory.wfFrom_cons]
      exact ⟨h1, hm.2⟩
    · exact Memory.wfFrom_mono (by omega) hm.2.2.2
    · rw [Memory.wfFrom_cons]
      exact ⟨hlo, hhi, h4, h3 ▸ hm.2.2.2⟩
    · rw [Memory.wfFrom_cons]
      exact ⟨hm.1, hm.2.1, hm.2.2.1, ih hm.2.2.2 (by omega)⟩

theorem Memory.write_wf {size : Nat} {m : Memory} (hm : m.wf size = true) {a : Nat} (v : Byte) (h : a < size) :
    (m.write a v).wf size = true :=
  Memory.write_wfFrom hm v (Nat.zero_le a) h

theorem Memory.read_write {size : Nat} {m : Memory} (hm : m.wf size = true) (a b : Nat) (v : Byte) :
    (m.write a v).read b = if b = a then v else m.read b := by
  split_ifs with h
  · rw [h, Memory.read_write_same hm]
  · exact Memory.read_write_other m v h

/-- Two memories in canonical form that read the same everywhere are the same list. -/
theorem Memory.ext_of_read {lo hi : Nat} {m n : Memory} (hm : Memory.wfFrom lo hi m = true)
    (hn : Memory.wfFrom lo hi n = true) (h : ∀ a, lo ≤ a → a < hi → m.read a = n.read a) : m = n := by
  induction m generalizing lo n with
  | nil =>
    match n with
    | [] => rfl
    | (k, w) :: rest =>
      rw [Memory.wfFrom_cons] at hn
      have := h k hn.1 hn.2.1
      rw [Memory.read_cons, if_pos rfl] at this
      exact absurd this.symm hn.2.2.1
  | cons c rest ih =>
    obtain ⟨k, w⟩ := c
    rw [Memory.wfFrom_cons] at hm
    match n with
    | [] =>
      have := h k hm.1 hm.2.1
      rw [Memory.read_cons, if_pos rfl] at this
      exact absurd this hm.2.2.1
    | (k', w') :: rest' =>
      rw [Memory.wfFrom_cons] at hn
      have hk : k = k' := by
        rcases Nat.lt_trichotomy k k' with hlt | heq | hgt
        · have h1 := h k hm.1 hm.2.1
          rw [Memory.read_cons, if_pos rfl, Memory.read_cons, if_neg (by omega),
            Memory.read_below hn.2.2.2 (by omega)] at h1
          exact absurd h1 hm.2.2.1
        · exact heq
        · have h1 := h k' hn.1 hn.2.1
          rw [Memory.read_cons, if_neg (by omega), Memory.read_below hm.2.2.2 (by omega), Memory.read_cons,
            if_pos rfl] at h1
          exact absurd h1.symm hn.2.2.1
      subst hk
      have hw : w = w' := by
        have h1 := h k hm.1 hm.2.1
        rwa [Memory.read_cons, if_pos rfl, Memory.read_cons, if_pos rfl] at h1
      subst hw
      rw [ih hm.2.2.2 hn.2.2.2 fun a h1 h2 => by
        have h3 := h a (by omega) h2
        rwa [Memory.read_cons, if_neg (by omega), Memory.read_cons, if_neg (by omega)] at h3]

@[simp] theorem Memory.length_slice (m : Memory) (off len : Nat) : (m.slice off len).length = len := by
  simp [Memory.slice]

theorem Memory.getElem_slice (m : Memory) (off len k : Nat) (h : k < (m.slice off len).length) :
    (m.slice off len)[k] = m.read (off + k) := by
  simp [Memory.slice]

/-- A slice depends on nothing but the bytes in it. -/
theorem Memory.slice_congr {m n : Memory} {off len : Nat} (h : ∀ k, k < len → m.read (off + k) = n.read (off + k)) :
    m.slice off len = n.slice off len := by
  apply List.map_congr_left
  intro k hk
  exact h k (List.mem_range.mp hk)

end Sys2Proof.Machine
end

