-- ==== Sys2Proof/Laws/Ops.lean ====
section
/-! SUPPORT. For each shared operation, one lemma that says everything it can do: with no transfer in flight (`_idle`) and
with one in flight (`_busy`). The provers cite these instead of unfolding the operations. -/

namespace Sys2Proof.Machine

/-! ## The course of a command -/

@[simp] theorem Run.andThen_ret {α β : Type} (a : α) (s : State) (k : α → State → Run β) :
    (Run.ret a s).andThen k = k a s := rfl

@[simp] theorem Run.andThen_raised {α β : Type} (s : State) (k : α → State → Run β) :
    (Run.raised s : Run α).andThen k = .raised s := rfl

@[simp] theorem completed_ret (a : Resp) (s : State) : completed (.ret a s) = .next (s.setResp a) := rfl

@[simp] theorem completed_raised (s : State) : completed (.raised s) = .next s := rfl

theorem completed_next (r : Run Resp) : ∃ t, completed r = .next t := ⟨_, rfl⟩

/-! ## Framebuffer writes -/

@[simp] theorem fbWrite_idle {s : State} (h : s.burstBusy = false) (i : Nat) (v : Byte) :
    fbWrite i v s = .ret () (s.setFb (s.fb.write i v)) := by
  simp [fbWrite, h]

@[simp] theorem fbWrite_busy {s : State} (h : s.burstBusy = true) (i : Nat) (v : Byte) :
    fbWrite i v s = .raised (s.raise .fbWriteDuringBurst) := by
  simp [fbWrite, h]

theorem inBounds_iff (x y : Nat) : inBounds x y = true ↔ x < 128 ∧ y < 64 := by
  simp [inBounds]

/-- The byte of a pixel in bounds is a byte of the framebuffer (R110). -/
theorem pixelByte_lt {x y : Nat} (hx : x < 128) (hy : y < 64) : pixelByte x y < fbBytes := by
  simp only [pixelByte, displayWidth, fbBytes]
  omega

theorem pixelBit_lt (y : Nat) : pixelBit y < 8 := Nat.mod_lt _ (by decide)

theorem putPixel_outside {x y : Nat} (h : ¬(x < 128 ∧ y < 64)) (c : Color) (s : State) :
    putPixel x y c s = .ret (decide (s.cfg.drawOob = .ignore)) s := by
  have hb : inBounds x y = false := by
    rw [← Bool.not_eq_true, inBounds_iff]
    exact h
  cases hd : s.cfg.drawOob <;> simp [putPixel, hb, hd]

theorem putPixel_inside {x y : Nat} (hx : x < 128) (hy : y < 64) (c : Color) {s : State} (h : s.burstBusy = false) :
    putPixel x y c s =
      .ret true (s.setFb (s.fb.write (pixelByte x y) (paintBit (s.fb.read (pixelByte x y)) (pixelBit y) c))) := by
  have hb : inBounds x y = true := (inBounds_iff x y).mpr ⟨hx, hy⟩
  simp [putPixel, hb, h]

theorem putPixel_inside_busy {x y : Nat} (hx : x < 128) (hy : y < 64) (c : Color) {s : State}
    (h : s.burstBusy = true) : putPixel x y c s = .raised (s.raise .fbWriteDuringBurst) := by
  have hb : inBounds x y = true := (inBounds_iff x y).mpr ⟨hx, hy⟩
  simp [putPixel, hb, h]

theorem putPixel_idle (x y : Nat) (c : Color) {s : State} (h : s.burstBusy = false) :
    ∃ ok m, putPixel x y c s = .ret ok (s.setFb m) ∧ (s.fb.wf fbBytes = true → m.wf fbBytes = true) := by
  by_cases hb : x < 128 ∧ y < 64
  · exact ⟨_, _, putPixel_inside hb.1 hb.2 c h, fun hw => Memory.write_wf hw _ (pixelByte_lt hb.1 hb.2)⟩
  · exact ⟨_, s.fb, putPixel_outside hb c s, id⟩

theorem putPixel_busy (x y : Nat) (c : Color) {s : State} (h : s.burstBusy = true) :
    (∃ ok, putPixel x y c s = .ret ok s) ∨ putPixel x y c s = .raised (s.raise .fbWriteDuringBurst) := by
  by_cases hb : x < 128 ∧ y < 64
  · exact .inr (putPixel_inside_busy hb.1 hb.2 c h)
  · exact .inl ⟨_, putPixel_outside hb c s⟩

theorem putPixels_idle (cells : List (Nat × Nat × Color)) {s : State} (h : s.burstBusy = false) :
    ∃ ok m, putPixels cells s = .ret ok (s.setFb m) ∧ (s.fb.wf fbBytes = true → m.wf fbBytes = true) := by
  induction cells generalizing s with
  | nil => exact ⟨true, s.fb, rfl, id⟩
  | cons cell rest ih =>
    obtain ⟨x, y, c⟩ := cell
    obtain ⟨ok, m, he, hm⟩ := putPixel_idle x y c h
    cases ok with
    | false => exact ⟨false, m, by simp [putPixels, he], hm⟩
    | true =>
      obtain ⟨ok, m', he', hm'⟩ := ih (s := s.setFb m) h
      exact ⟨ok, m', by simp only [putPixels, he, Run.andThen_ret, if_true, he']; rfl, fun hw => hm' (hm hw)⟩

theorem putPixels_busy (cells : List (Nat × Nat × Color)) {s : State} (h : s.burstBusy = true) :
    (∃ ok, putPixels cells s = .ret ok s) ∨ putPixels cells s = .raised (s.raise .fbWriteDuringBurst) := by
  induction cells with
  | nil => exact .inl ⟨true, rfl⟩
  | cons cell rest ih =>
    obtain ⟨x, y, c⟩ := cell
    rcases putPixel_busy x y c h with ⟨ok, he⟩ | he
    · cases ok with
      | false => exact .inl ⟨false, by simp [putPixels, he]⟩
      | true => simpa [putPixels, he] using ih
    · exact .inr (by simp [putPixels, he])

theorem fbWriteAll_idle (addrs : List Nat) (v : Byte) {s : State} (h : s.burstBusy = false) :
    fbWriteAll addrs v s = .ret () (s.setFb (addrs.foldl (fun m i => m.write i v) s.fb)) := by
  induction addrs generalizing s with
  | nil => rfl
  | cons i rest ih =>
    rw [fbWriteAll, fbWrite_idle h, Run.andThen_ret, ih (s := s.setFb (s.fb.write i v)) h]
    rfl

/-- The bytes a run of writes of one value leaves. -/
theorem read_foldl_write {m : Memory} {size : Nat} (hm : m.wf size = true) (addrs : List Nat)
    (hin : ∀ i ∈ addrs, i < size) (v : Byte) (a : Nat) :
    (addrs.foldl (fun m i => m.write i v) m).wf size = true ∧
      (addrs.foldl (fun m i => m.write i v) m).read a = if a ∈ addrs then v else m.read a := by
  induction addrs generalizing m with
  | nil => simp [hm]
  | cons i rest ih =>
    have hi := hin i (by simp)
    obtain ⟨h1, h2⟩ := ih (Memory.write_wf hm v hi) fun j hj => hin j (by simp [hj])
    refine ⟨h1, ?_⟩
    rw [List.foldl_cons, h2, Memory.read_write hm]
    by_cases ha : a ∈ rest <;> by_cases hai : a = i <;> simp [ha, hai]

/-- The framebuffer after `FBWrite(i, v)` for every `i`. -/
def filled (v : Byte) (m : Memory) : Memory := (List.range fbBytes).foldl (fun m i => m.write i v) m

theorem fbFill_idle (v : Byte) {s : State} (h : s.burstBusy = false) :
    fbFill v s = .ret () (s.setFb (filled v s.fb)) := fbWriteAll_idle _ v h

/-- A fill in flight faults at its first byte (R115). -/
theorem fbFill_busy (v : Byte) {s : State} (h : s.burstBusy = true) :
    fbFill v s = .raised (s.raise .fbWriteDuringBurst) := by
  have hr : List.range fbBytes = 0 :: (List.range 1023).map Nat.succ := List.range_succ_eq_map
  rw [fbFill, hr, fbWriteAll, fbWrite_busy h, Run.andThen_raised]

theorem filled_wf (v : Byte) {m : Memory} (hm : m.wf fbBytes = true) : (filled v m).wf fbBytes = true :=
  (read_foldl_write hm _ (fun _ h => List.mem_range.mp h) v 0).1

theorem read_filled (v : Byte) {m : Memory} (hm : m.wf fbBytes = true) {a : Nat} (ha : a < fbBytes) :
    (filled v m).read a = v := by
  rw [filled, (read_foldl_write hm _ (fun _ h => List.mem_range.mp h) v a).2, if_pos (List.mem_range.mpr ha)]

/-! ## Cursor and text -/

theorem fits_advance {k : FitCheck} {cx cy : Nat} {f : Font} (h : fits k cx cy f = true) : cx + f.width ≤ 127 := by
  cases k <;> cases f <;> simp [fits, Font.width, Font.height, displayWidth, displayHeight] at h ⊢ <;> omega

theorem advanceWidth_le (cfg : Config) (f : Font) (p : Bool) :
    advanceWidth cfg f p ≤ f.width + (if p then 1 else 0) := by
  cases p <;> cases h : cfg.padDouble <;> simp [advanceWidth, h]

theorem paintPadding_idle (f : Font) (c : Color) (p : Bool) {s : State} (h : s.burstBusy = false) :
    ∃ ok m, paintPadding f c p s = .ret ok (if ok && p then advanceCx 1 (s.setFb m) else s.setFb m) ∧
      (s.fb.wf fbBytes = true → m.wf fbBytes = true) := by
  cases p with
  | false => exact ⟨true, s.fb, rfl, id⟩
  | true =>
    obtain ⟨ok, m, he, hm⟩ := putPixels_idle (paddingCells f c s.cx.toNat s.cy.toNat) h
    exact ⟨ok, m, by cases ok <;> simp [paintPadding, he], hm⟩

theorem paintPadding_busy (f : Font) (c : Color) (p : Bool) {s : State} (h : s.burstBusy = true) :
    (∃ ok, paintPadding f c p s = .ret ok (if ok && p then advanceCx 1 s else s)) ∨
      paintPadding f c p s = .raised (s.raise .fbWriteDuringBurst) := by
  cases p with
  | false => exact .inl ⟨true, rfl⟩
  | true =>
    rcases putPixels_busy (paddingCells f c s.cx.toNat s.cy.toNat) h with ⟨ok, he⟩ | he
    · exact .inl ⟨ok, by cases ok <;> simp [paintPadding, he]⟩
    · exact .inr (by simp [paintPadding, he])

theorem paintRows_idle (ch : Byte) (f : Font) (c : Color) (rows : List Nat) {s : State} (h : s.burstBusy = false) :
    ∃ ok m, paintRows ch f c rows s = .ret ok (s.setFb m) ∧ (s.fb.wf fbBytes = true → m.wf fbBytes = true) := by
  induction rows generalizing s with
  | nil => exact ⟨true, s.fb, rfl, id⟩
  | cons r rest ih =>
    cases hg : glyphRow s.glyph f (glyphIndex f ch r) with
    | none => exact ⟨false, s.fb, by simp only [paintRows, hg]; rfl, id⟩
    | some row =>
      obtain ⟨ok, m, he, hm⟩ := putPixels_idle (rowCells f c s.cx.toNat s.cy.toNat r row) h
      cases ok with
      | false => exact ⟨false, m, by simp [paintRows, hg, he], hm⟩
      | true =>
        obtain ⟨ok, m', he', hm'⟩ := ih (s := s.setFb m) h
        exact ⟨ok, m', by simp only [paintRows, hg, he, Run.andThen_ret, if_true, he']; rfl, fun hw => hm' (hm hw)⟩

theorem paintRows_busy (ch : Byte) (f : Font) (c : Color) (rows : List Nat) {s : State} (h : s.burstBusy = true) :
    (∃ ok, paintRows ch f c rows s = .ret ok s) ∨
      paintRows ch f c rows s = .raised (s.raise .fbWriteDuringBurst) := by
  induction rows with
  | nil => exact .inl ⟨true, rfl⟩
  | cons r rest ih =>
    cases hg : glyphRow s.glyph f (glyphIndex f ch r) with
    | none => exact .inl ⟨false, by simp only [paintRows, hg]⟩
    | some row =>
      rcases putPixels_busy (rowCells f c s.cx.toNat s.cy.toNat r row) h with ⟨ok, he⟩ | he
      · cases ok with
        | false => exact .inl ⟨false, by simp [paintRows, hg, he]⟩
        | true => simpa [paintRows, hg, he] using ih
      · exact .inr (by simp [paintRows, hg, he])

/-- The cursor column a character may leave: the one it found, or one within the bound of R35. -/
def CxReach (s : State) (x : Byte) : Prop := x = s.cx ∨ x.toNat ≤ 129

/-- A character with no transfer in flight: no fault, and nothing but the framebuffer and CX changes. -/
theorem rasterChar_idle (ch : Byte) (f : Font) (c : Color) (p : Bool) {s : State} (h : s.burstBusy = false) :
    ∃ r m x, rasterChar ch f c p s = .ret r ((s.setFb m).setCx x) ∧
      (s.fb.wf fbBytes = true → m.wf fbBytes = true) ∧ CxReach s x := by
  by_cases hf : fits s.cfg.fitCheck s.cx.toNat s.cy.toNat f = true
  · have hfit := fits_advance hf
    have hadv := advanceWidth_le s.cfg f p
    obtain ⟨ok, m, he, hm⟩ := paintPadding_idle f c p h
    cases ok with
    | false =>
      exact ⟨_, m, s.cx, by simp only [rasterChar, hf, he, Bool.false_and, if_true, Run.andThen_ret]; rfl, hm, .inl rfl⟩
    | true =>
      simp only [Bool.true_and] at he
      obtain ⟨s1, hs1, hb1, hfb1, hcfg1, hcx1, hlift⟩ : ∃ s1 : State, paintPadding f c p s = .ret true s1 ∧
          s1.burstBusy = false ∧ s1.fb = m ∧ s1.cfg = s.cfg ∧
          (s1.cx.toNat = s.cx.toNat + (if p then 1 else 0)) ∧
          ∀ m' x, (s1.setFb m').setCx x = (s.setFb m').setCx x := by
        refine ⟨_, he, ?_, ?_, ?_, ?_, ?_⟩ <;> cases p <;> simp [advanceCx, h]
        · omega
        · intros; rfl
        · intros; rfl
      obtain ⟨ok, m2, he2, hm2⟩ := paintRows_idle ch f c (List.range f.height) hb1
      have hm2' : s.fb.wf fbBytes = true → m2.wf fbBytes = true := fun hw => hm2 (hfb1 ▸ hm hw)
      cases ok with
      | false =>
        refine ⟨failResp .pixelOutOfBounds, m2, s1.cx, ?_, hm2', .inr ?_⟩
        · rw [← hlift]
          simp only [rasterChar, hf, hs1, he2, if_true, Run.andThen_ret]; rfl
        · rw [hcx1]; cases p <;> simp <;> omega
      | true =>
        refine ⟨dataResp (zext16 ch), m2, BitVec.ofNat 8 (s1.cx.toNat + advanceWidth s1.cfg f p), ?_, hm2', .inr ?_⟩
        · rw [← hlift]
          simp only [rasterChar, hf, hs1, he2, if_true, Run.andThen_ret]; rfl
        · rw [hcfg1, hcx1]
          cases p <;> simp at hadv ⊢ <;> omega
  · exact ⟨_, s.fb, s.cx, by simp only [rasterChar, hf]; rfl, id, .inl rfl⟩

/-- A character with a transfer in flight: it changes at most CX before it ends or faults (R113, R244). -/
theorem rasterChar_busy (ch : Byte) (f : Font) (c : Color) (p : Bool) {s : State} (h : s.burstBusy = true) :
    ∃ x, CxReach s x ∧ ((∃ r, rasterChar ch f c p s = .ret r (s.setCx x)) ∨
      rasterChar ch f c p s = .raised ((s.setCx x).raise .fbWriteDuringBurst)) := by
  by_cases hf : fits s.cfg.fitCheck s.cx.toNat s.cy.toNat f = true
  · have hfit := fits_advance hf
    have hadv := advanceWidth_le s.cfg f p
    rcases paintPadding_busy f c p h with ⟨ok, he⟩ | he
    · cases ok with
      | false =>
        exact ⟨s.cx, .inl rfl,
          .inl ⟨_, by simp only [rasterChar, hf, he, Bool.false_and, if_true, Run.andThen_ret]; rfl⟩⟩
      | true =>
        simp only [Bool.true_and] at he
        obtain ⟨s1, hs1, hb1, hcfg1, hcx1, hlift⟩ : ∃ s1 : State, paintPadding f c p s = .ret true s1 ∧
            s1.burstBusy = true ∧ s1.cfg = s.cfg ∧
            (s1.cx.toNat = s.cx.toNat + (if p then 1 else 0)) ∧ ∀ x, s1.setCx x = s.setCx x := by
          refine ⟨_, he, ?_, ?_, ?_, ?_⟩ <;> cases p <;> simp [advanceCx, h]
          · omega
          · intros; rfl
        have hb : CxReach s s1.cx := .inr (by rw [hcx1]; cases p <;> simp <;> omega)
        rcases paintRows_busy ch f c (List.range f.height) hb1 with ⟨ok, he2⟩ | he2
        · cases ok with
          | false =>
            refine ⟨s1.cx, hb, .inl ⟨failResp .pixelOutOfBounds, ?_⟩⟩
            rw [← hlift]
            simp only [rasterChar, hf, hs1, he2, if_true, Run.andThen_ret]; rfl
          | true =>
            refine ⟨BitVec.ofNat 8 (s1.cx.toNat + advanceWidth s1.cfg f p), .inr ?_, .inl ⟨dataResp (zext16 ch), ?_⟩⟩
            · rw [hcfg1, hcx1]
              cases p <;> simp at hadv ⊢ <;> omega
            · rw [← hlift]
              simp only [rasterChar, hf, hs1, he2, if_true, Run.andThen_ret]; rfl
        · refine ⟨s1.cx, hb, .inr ?_⟩
          rw [← hlift]
          simp only [rasterChar, hf, hs1, he2, if_true, Run.andThen_ret, Run.andThen_raised]; rfl
    · exact ⟨s.cx, .inl rfl, .inr (by simp only [rasterChar, hf, he, if_true, Run.andThen_raised]; rfl)⟩
  · exact ⟨s.cx, .inl rfl, .inl ⟨_, by simp only [rasterChar, hf]; rfl⟩⟩

theorem CxReach.trans {s t : State} {x : Byte} (h1 : CxReach s t.cx) (h2 : CxReach t x) : CxReach s x := by
  rcases h2 with h2 | h2
  · exact h2 ▸ h1
  · exact .inr h2

/-- A text with no transfer in flight: no fault, and nothing but the framebuffer and CX changes. -/
theorem rasterText_idle (f : Font) (c : Color) (p : Bool) (text : List Byte) {s : State} (h : s.burstBusy = false) :
    ∃ r m x, rasterText f c p text s = .ret r ((s.setFb m).setCx x) ∧
      (s.fb.wf fbBytes = true → m.wf fbBytes = true) ∧ CxReach s x := by
  induction text generalizing s with
  | nil => exact ⟨_, s.fb, s.cx, rfl, id, .inl rfl⟩
  | cons ch rest ih =>
    obtain ⟨r, m, x, he, hm, hx⟩ := rasterChar_idle ch f c p h
    by_cases hr : r.status = .ok
    · obtain ⟨r', m', x', he', hm', hx'⟩ := ih (s := (s.setFb m).setCx x) h
      exact ⟨r', m', x', by simp only [rasterText, he, Run.andThen_ret, hr, if_true, he']; rfl,
        fun hw => hm' (hm hw), CxReach.trans (t := (s.setFb m).setCx x) hx hx'⟩
    · exact ⟨_, m, x, by simp only [rasterText, he, Run.andThen_ret, hr, if_false]; rfl, hm, hx⟩

/-- A text with a transfer in flight: it changes at most CX before it ends or faults. -/
theorem rasterText_busy (f : Font) (c : Color) (p : Bool) (text : List Byte) {s : State} (h : s.burstBusy = true) :
    ∃ x, CxReach s x ∧ ((∃ r, rasterText f c p text s = .ret r (s.setCx x)) ∨
      rasterText f c p text s = .raised ((s.setCx x).raise .fbWriteDuringBurst)) := by
  induction text generalizing s with
  | nil => exact ⟨s.cx, .inl rfl, .inl ⟨_, rfl⟩⟩
  | cons ch rest ih =>
    obtain ⟨x, hx, ⟨r, he⟩ | he⟩ := rasterChar_busy ch f c p h
    · by_cases hr : r.status = .ok
      · obtain ⟨x', hx', hout⟩ := ih (s := s.setCx x) h
        refine ⟨x', CxReach.trans (t := s.setCx x) hx hx', ?_⟩
        rcases hout with ⟨r', he'⟩ | he'
        · exact .inl ⟨r', by simp only [rasterText, he, Run.andThen_ret, hr, if_true, he']; rfl⟩
        · exact .inr (by simp only [rasterText, he, Run.andThen_ret, hr, if_true, he']; rfl)
      · exact ⟨x, hx, .inl ⟨_, by simp only [rasterText, he, Run.andThen_ret, hr, if_false]; rfl⟩⟩
    · exact ⟨x, hx, .inr (by simp only [rasterText, he, Run.andThen_raised])⟩

theorem moveCursor_cases (x y : Byte) (s : State) :
    (x.toNat < 128 ∧ y.toNat < 64 ∧ moveCursor x y s = .ret okResp (s.setCursor x y)) ∨
      (¬(x.toNat < 128 ∧ y.toNat < 64) ∧ moveCursor x y s = .ret (failResp .cursorOutOfBounds) s) := by
  by_cases h : x.toNat < 128 ∧ y.toNat < 64
  · exact .inl ⟨h.1, h.2, if_pos h⟩
  · exact .inr ⟨h, if_neg h⟩

/-! ## Transfers -/

/-- Ready polling has no effect, whatever the budget (R174). -/
@[simp] theorem pollReady_eq (budget : Nat) (s : State) : pollReady budget s = s := by
  induction budget with
  | zero => rfl
  | succ n ih => exact ih

/-- The state after one transfer: the line driven, its event and the transfer's event emitted, one answer drawn. -/
def transferred (s : State) (m : LineMode) (e : Bool → Event) : State :=
  { s with
    dc := dcLevel s.cfg m
    trace := s.trace ++ [.dc m, e (drawAnswer s).1]
    answers := (drawAnswer s).2.answers
    draws := (drawAnswer s).2.draws }

theorem sendCmd_idle (b : Byte) {s : State} (h : s.burstBusy = false) :
    sendCmd b s = .ret (drawAnswer s).1 (transferred s .cmd (.cmd b)) := by
  cases ha : s.answers <;>
    simp [sendCmd, h, transferred, drawAnswer, State.driveDc, State.emit, ha, List.append_assoc]

theorem sendCmd_busy (b : Byte) {s : State} (h : s.burstBusy = true) :
    sendCmd b s = .raised (s.raise .transferDuringBurst) := by
  simp [sendCmd, h]

theorem sendData_idle (off len : Nat) {s : State} (h : s.burstBusy = false) :
    sendData off len s =
      .ret (drawAnswer s).1 (transferred s .data (.data off len (s.fb.slice off len))) := by
  cases ha : s.answers <;>
    simp [sendData, h, transferred, drawAnswer, State.driveDc, State.emit, ha, List.append_assoc]

theorem sendData_busy (off len : Nat) {s : State} (h : s.burstBusy = true) :
    sendData off len s = .raised (s.raise .transferDuringBurst) := by
  simp [sendData, h]

/-- What a run of transfers changes: the line, the trace (which grows), and the transport's answers. -/
def Sent (s t : State) : Prop :=
  ∃ l, t = { s with dc := t.dc, trace := s.trace ++ l, answers := t.answers, draws := t.draws }

theorem Sent.refl (s : State) : Sent s s := ⟨[], by simp⟩

theorem Sent.trans {s t u : State} (h1 : Sent s t) (h2 : Sent t u) : Sent s u := by
  obtain ⟨l1, h1⟩ := h1
  obtain ⟨l2, h2⟩ := h2
  refine ⟨l1 ++ l2, ?_⟩
  rw [h1] at h2
  simpa [List.append_assoc] using h2

theorem sent_transferred (s : State) (m : LineMode) (e : Bool → Event) : Sent s (transferred s m e) := ⟨_, rfl⟩

theorem Sent.burstBusy {s t : State} (h : Sent s t) : t.burstBusy = s.burstBusy := by
  obtain ⟨l, h⟩ := h
  rw [h]

theorem Sent.fb {s t : State} (h : Sent s t) : t.fb = s.fb := by
  obtain ⟨l, h⟩ := h
  rw [h]

theorem Sent.cfg {s t : State} (h : Sent s t) : t.cfg = s.cfg := by
  obtain ⟨l, h⟩ := h
  rw [h]

theorem sendScript_idle (script : List Byte) {s : State} (h : s.burstBusy = false) :
    ∃ ok t, sendScript script s = .ret ok t ∧ Sent s t := by
  induction script generalizing s with
  | nil => exact ⟨true, s, rfl, .refl s⟩
  | cons b rest ih =>
    have hs := sent_transferred s .cmd (.cmd b)
    cases hd : (drawAnswer s).1 with
    | false => exact ⟨false, _, by simp [sendScript, sendCmd_idle b h, hd], hs⟩
    | true =>
      obtain ⟨ok, t, he, ht⟩ := ih (s := transferred s .cmd (.cmd b)) h
      exact ⟨ok, t, by simp [sendScript, sendCmd_idle b h, hd, he], hs.trans ht⟩

theorem sendPage_idle (p : Nat) {s : State} (h : s.burstBusy = false) :
    ∃ st t, sendPage p s = .ret st t ∧ Sent s t := by
  have h1 := sendCmd_idle (pageSelect s.cfg p) h
  have s1 := sent_transferred s .cmd (.cmd (pageSelect s.cfg p))
  cases d1 : (drawAnswer s).1 with
  | false => exact ⟨_, _, by simp [sendPage, h1, d1]; rfl, s1⟩
  | true =>
    generalize he1 : transferred s .cmd (.cmd (pageSelect s.cfg p)) = t1 at h1 s1
    have h2 := sendCmd_idle t1.cfg.cmdColLow (s := t1) (s1.burstBusy.trans h)
    have s2 := s1.trans (sent_transferred t1 .cmd (.cmd t1.cfg.cmdColLow))
    cases d2 : (drawAnswer t1).1 with
    | false => exact ⟨_, _, by simp [sendPage, h1, d1, h2, d2]; rfl, s2⟩
    | true =>
      generalize he2 : transferred t1 .cmd (.cmd t1.cfg.cmdColLow) = t2 at h2 s2
      have h3 := sendCmd_idle t2.cfg.cmdColHigh (s := t2) (s2.burstBusy.trans h)
      have s3 := s2.trans (sent_transferred t2 .cmd (.cmd t2.cfg.cmdColHigh))
      cases d3 : (drawAnswer t2).1 with
      | false => exact ⟨_, _, by simp [sendPage, h1, d1, h2, d2, h3, d3]; rfl, s3⟩
      | true =>
        generalize he3 : transferred t2 .cmd (.cmd t2.cfg.cmdColHigh) = t3 at h3 s3
        have h4 := sendData_idle (p * displayWidth) displayWidth (s := t3) (s3.burstBusy.trans h)
        have s4 := s3.trans (sent_transferred t3 .data
          (.data (p * displayWidth) displayWidth (t3.fb.slice (p * displayWidth) displayWidth)))
        cases d4 : (drawAnswer t3).1 <;>
          exact ⟨_, _, by simp [sendPage, h1, d1, h2, d2, h3, d3, h4, d4]; rfl, s4⟩

theorem sendPages_idle (pages : List Nat) {s : State} (h : s.burstBusy = false) :
    ∃ r t, sendPages pages s = .ret r t ∧ Sent s t := by
  induction pages generalizing s with
  | nil => exact ⟨_, s, rfl, .refl s⟩
  | cons p rest ih =>
    obtain ⟨st, t, he, ht⟩ := sendPage_idle p h
    by_cases hst : st = .ok
    · obtain ⟨r, u, hu, hsu⟩ := ih (s := t) (ht.burstBusy.trans h)
      exact ⟨r, u, by simp [sendPages, he, hst, hu], ht.trans hsu⟩
    · exact ⟨_, t, by simp only [sendPages, he, Run.andThen_ret, hst, if_false]; rfl, ht⟩

/-- A flush with no transfer in flight: no fault. It only sends, but for BURST_BUSY, which a successful burst sets with the
whole framebuffer as the last event (R176 to R179). -/
theorem flush_idle {s : State} (h : s.burstBusy = false) :
    ∃ r t, flush s = .ret r t ∧ ((Sent s t ∧ (s.cfg.burstMode = true → r.status ≠ .ok)) ∨
      (s.cfg.burstMode = true ∧ r = okResp ∧
        ∃ u, Sent s u ∧ u.trace.getLast? = some (.data 0 fbBytes (s.fb.slice 0 fbBytes) true) ∧ t = u.setBusy true)) := by
  cases hm : s.cfg.burstMode with
  | false =>
    obtain ⟨r, t, he, ht⟩ := sendPages_idle (List.range displayPages) h
    exact ⟨r, t, by simp [flush, hm, flushSync, he], .inl ⟨ht, by simp⟩⟩
  | true =>
    have h1 := sendData_idle 0 fbBytes h
    have s1 := sent_transferred s .data (.data 0 fbBytes (s.fb.slice 0 fbBytes))
    cases hd : (drawAnswer s).1 with
    | false =>
      refine ⟨failResp .dataTransmitError, _, ?_, .inl ⟨s1, fun _ => by simp [failResp]⟩⟩
      simp [flush, hm, flushBurst, h1, hd]
    | true =>
      refine ⟨okResp, _, ?_, .inr ⟨rfl, rfl, _, s1, ?_, rfl⟩⟩
      · simp [flush, hm, flushBurst, h1, hd]
      · simp [transferred, hd]

/-- A flush with a transfer in flight faults before any event (R245). -/
theorem flush_busy {s : State} (h : s.burstBusy = true) : flush s = .raised (s.raise .transferDuringBurst) := by
  cases hm : s.cfg.burstMode with
  | false =>
    have hr : List.range displayPages = 0 :: (List.range 7).map Nat.succ := List.range_succ_eq_map
    rw [flush, hm, if_neg (by decide), flushSync, hr, sendPages, sendPage, sendCmd_busy _ h]
    rfl
  | true => rw [flush, hm, if_pos rfl, flushBurst, sendData_busy _ _ h, Run.andThen_raised]

end Sys2Proof.Machine
end

