-- ==== Sys2Proof/Laws/PerInstr.lean ====
section
/-! SUPPORT. Per-instruction laws of the encoding: every command's word carries its opcode in bits [3:0], and no command
has opcode 0 (R72, R77, R78). -/

namespace Sys2Proof.Laws.OpcodeField

/-- Bits [3:0] of a command's word are its opcode, and it is not 0. -/
def Statement (i : Instr) : Prop := opField (encode i) = i.opcode ∧ i.opcode ≠ 0#4

theorem opField_or (a b : Word) : opField (a ||| b) = opField a ||| opField b := BitVec.extractLsb'_or

/-- A field above bit 3 leaves the opcode alone. -/
theorem opField_atBit {n lo : Nat} (v : BitVec n) (h : 4 ≤ lo) : opField (atBit lo v) = 0#4 := by
  apply BitVec.eq_of_getLsbD_eq
  intro k hk
  simp [opField, atBit]
  omega

theorem drawPixel (x y : Byte) (c : Color) : Statement (.drawPixel x y c) := ⟨by simp [encode, opField_or, opField_atBit]; rfl, (by decide : 0x1#4 ≠ 0#4)⟩
theorem fill (c : Color) : Statement (.fill c) := ⟨by simp [encode, opField_or, opField_atBit]; rfl, (by decide : 0x2#4 ≠ 0#4)⟩
theorem setCursor (x y : Byte) : Statement (.setCursor x y) := ⟨by simp [encode, opField_or, opField_atBit]; rfl, (by decide : 0x3#4 ≠ 0#4)⟩
theorem writeChar (ch : Byte) (f : Font) (c : Color) (p : Bool) : Statement (.writeChar ch f c p) :=
  ⟨by simp [encode, opField_or, opField_atBit]; rfl, (by decide : 0x4#4 ≠ 0#4)⟩
theorem textClear : Statement .textClear := ⟨rfl, (by decide : 0x5#4 ≠ 0#4)⟩
theorem textPush (ch : Byte) : Statement (.textPush ch) := ⟨by simp [encode, opField_or, opField_atBit]; rfl, (by decide : 0x6#4 ≠ 0#4)⟩
theorem writeString (f : Font) (c : Color) (p : Bool) : Statement (.writeString f c p) := ⟨by simp [encode, opField_or, opField_atBit]; rfl, (by decide : 0x7#4 ≠ 0#4)⟩
theorem write (f : Font) (x y : Byte) (b c : Color) (p u : Bool) : Statement (.write f x y b c p u) :=
  ⟨by simp [encode, opField_or, opField_atBit]; rfl, (by decide : 0x8#4 ≠ 0#4)⟩
theorem flush : Statement .flush := ⟨rfl, (by decide : 0x9#4 ≠ 0#4)⟩
theorem init : Statement .init := ⟨rfl, (by decide : 0xA#4 ≠ 0#4)⟩
theorem fbRead (idx : Half) : Statement (.fbRead idx) := ⟨by simp [encode, opField_or, opField_atBit]; rfl, (by decide : 0xB#4 ≠ 0#4)⟩
theorem glyphRead (f : Font) (idx : Half) : Statement (.glyphRead f idx) := ⟨by simp [encode, opField_or, opField_atBit]; rfl, (by decide : 0xC#4 ≠ 0#4)⟩
theorem cursorRead : Statement .cursorRead := ⟨rfl, (by decide : 0xD#4 ≠ 0#4)⟩
theorem statusRead : Statement .statusRead := ⟨rfl, (by decide : 0xE#4 ≠ 0#4)⟩
theorem irqAck : Statement .irqAck := ⟨rfl, (by decide : 0xF#4 ≠ 0#4)⟩

end Sys2Proof.Laws.OpcodeField
end

