-- ==== Sys2Proof/Laws/Step.lean ====
section
/-! SUPPORT. What a step can do, said once: the equations of `step` by the environment's next action, and the inversion that
takes a step apart. -/

namespace Sys2Proof.Machine

theorem step_reset {s : State} {rest : List Input} (h : s.inputs = .reset :: rest) :
    step s = .next (s.setInputs rest).applyReset := by
  cases hf : s.fault <;> simp [step, takeAction, h, hf, act, actFaulted]

theorem step_command {s : State} {rest : List Input} {w : Word} (h : s.inputs = .command w :: rest) (hf : s.fault = none) :
    step s = runWord w (s.setInputs rest) := by
  simp [step, takeAction, h, hf, act]

theorem step_engine {s : State} {rest : List Input} (h : s.inputs = .engine :: rest) (hf : s.fault = none) :
    step s = .next (engineTurn (s.setInputs rest)) := by
  simp [step, takeAction, h, hf, act]

theorem step_idle {s : State} (h : s.inputs = []) (hf : s.fault = none) : step s = .next (idleTurn s) := by
  simp [step, takeAction, h, hf]

/-- A step that answers a next state is a reset, an action a faulted block ignores, an idle turn, the engine's turn, a
rejected word or a command. -/
theorem step_cases {s t : State} (h : step s = .next t) :
    (∃ rest, s.inputs = .reset :: rest ∧ t = (s.setInputs rest).applyReset) ∨
    (s.fault ≠ none ∧ ∃ a rest, a ≠ .reset ∧ s.inputs = a :: rest ∧ t = s.setInputs rest) ∨
    (s.fault = none ∧ s.inputs = [] ∧ t = idleTurn s) ∨
    (s.fault = none ∧ ∃ rest, s.inputs = .engine :: rest ∧ t = engineTurn (s.setInputs rest)) ∨
    (s.fault = none ∧ ∃ w rest why, s.inputs = .command w :: rest ∧ decode w = .illegal why ∧
      t = rejectWord (s.setInputs rest)) ∨
    (s.fault = none ∧ ∃ w rest i, s.inputs = .command w :: rest ∧ decode w = .instr i ∧
      exec i (s.setInputs rest) = .next t) := by
  rcases hi : s.inputs with _ | ⟨a, rest⟩ <;> rcases hf : s.fault with _ | r
  · rw [step_idle hi hf] at h
    cases h
    exact .inr (.inr (.inl ⟨rfl, rfl, rfl⟩))
  · simp [step, takeAction, hi, hf] at h
  · cases a with
    | command w =>
      rw [step_command hi hf, runWord] at h
      cases hd : decode w with
      | instr i =>
        rw [hd] at h
        exact .inr (.inr (.inr (.inr (.inr ⟨rfl, w, rest, i, rfl, hd, h⟩))))
      | illegal why =>
        rw [hd] at h
        cases h
        exact .inr (.inr (.inr (.inr (.inl ⟨rfl, w, rest, why, rfl, hd, rfl⟩))))
    | engine =>
      rw [step_engine hi hf] at h
      cases h
      exact .inr (.inr (.inr (.inl ⟨rfl, rest, rfl, rfl⟩)))
    | reset =>
      rw [step_reset hi] at h
      cases h
      exact .inl ⟨rest, rfl, rfl⟩
  · cases a with
    | reset =>
      rw [step_reset hi] at h
      cases h
      exact .inl ⟨rest, rfl, rfl⟩
    | command w =>
      simp only [step, takeAction, hi, hf, actFaulted, Host.Outcome.next.injEq] at h
      exact .inr (.inl ⟨by simp, _, rest, by simp, rfl, h.symm⟩)
    | engine =>
      simp only [step, takeAction, hi, hf, actFaulted, Host.Outcome.next.injEq] at h
      exact .inr (.inl ⟨by simp, _, rest, by simp, rfl, h.symm⟩)

/-- Every command answers a next state from every state: none stops. -/
theorem exec_next (i : Instr) (s : State) : ∃ t, exec i s = .next t := by
  cases i <;> exact ⟨_, rfl⟩

end Sys2Proof.Machine
end

