-- ==== Sys2Proof/Tests/Slice0.lean ====
section
/-! SUPPORT. Tests of one step each, with the expected values of spec/95_test_vectors.md; decoding tests with the words of
R77, R84 and that file; the checks of WellFormed, each refusing an ill-formed term; and, for every obligation with
hypotheses, concrete states and operands that meet them. -/

namespace Sys2Proof.Tests

open Sys2Proof.Machine Sys2Proof.Safety Sys2Proof.Claims

-- One theorem at a time: each runs in the kernel, and many at once wait on one another with a thread each.
set_option Elab.async false

/-! ## States -/

/-- A table of the test font TF: 0xDEAD at even and 0xBEEF at odd indices (95_test_vectors.md, Conventions). -/
def tfTable (n : Nat) : List Half := (List.range n).map fun i => if i % 2 = 0 then 0xDEAD#16 else 0xBEEF#16

/-- TF in every font, with the default lengths. -/
def tf : GlyphStore := ⟨tfTable 475, tfTable 665, tfTable 950, tfTable 1710, tfTable 2470⟩

/-- The default straps with two-byte scripts. -/
def testCfg : Config := { Config.default with initScriptPage := [0xAE#8, 0xAF#8], initScriptHoriz := [0x01#8, 0x02#8] }

/-- Reset, with TF and a transport that answers true. -/
def fresh : State := { State.reset with glyph := tf, cfg := testCfg, answers := List.replicate 34 true }

def freshBurst : State := { fresh with cfg := { testCfg with burstMode := true } }

/-- A transfer in flight, started with an all-zero framebuffer. -/
def inFlight : State :=
  { freshBurst with
    burstBusy := true
    trace := [.dc .data, .data 0 1024 (Memory.slice [] 0 1024) true] }

def faulted : State := { inFlight with fault := some .fbWriteDuringBurst }

def intended (s : State) : State := { s with cfg := { s.cfg with fitCheck := .intended } }

def ignoring (s : State) : State := { s with cfg := { s.cfg with drawOob := .ignore } }

/-- The text "AB" loaded. -/
def withAB (s : State) : State := { s with text := [(0, 0x41#8), (1, 0x42#8)], tlen := 2#9 }

def at' (x y : Byte) (s : State) : State := { s with cx := x, cy := y }

/-- One step with a command word on the port. -/
def send (w : Nat) (s : State) : State :=
  match step (s.withFetchWord 32 w) with
  | .next t => t
  | .fault _ => s
  | .refused _ => s

/-- What a command left: RESP and the cursor. -/
def seen (s : State) : Status × Half × Byte × Byte := (s.resp.status, s.resp.data, s.cx, s.cy)

/-! ## Decoding: every constructor by a word written out from its pattern in R77 -/

/-- y = 9, x = 3, c = 1 (R84). -/
theorem test_decode_drawPixel : decode 0b00001001000000110000000000010001#32 = .instr (.drawPixel 3#8 9#8 .white) := by decide
/-- c = 1. -/
theorem test_decode_fill : decode 0b00000000000000000000000000010010#32 = .instr (.fill .white) := by decide
/-- y = 63, x = 127. -/
theorem test_decode_setCursor : decode 0b00111111011111110000000000000011#32 = .instr (.setCursor 127#8 63#8) := by decide
/-- ch = 0x41, f = 1, p = 1, c = 1 (R84). -/
theorem test_decode_writeChar :
    decode 0b00000000010000010000000101010100#32 = .instr (.writeChar 0x41#8 .f5x7 .white true) := by decide
theorem test_decode_textClear : decode 0b00000000000000000000000000000101#32 = .instr .textClear := by decide
/-- ch = 0x54. -/
theorem test_decode_textPush : decode 0b00000000010101000000000000000110#32 = .instr (.textPush 0x54#8) := by decide
/-- f = 1, p = 1, c = 1. -/
theorem test_decode_writeString :
    decode 0b00000000000000000000000101010111#32 = .instr (.writeString .f5x7 .white true) := by decide
/-- y = 2, x = 2, f = 4, u = 1, p = 1, b = 0, c = 1 (R84). -/
theorem test_decode_write :
    decode 0b00000010000000100000010011011000#32 = .instr (.write .f16x26 2#8 2#8 .black .white true true) := by decide
/-- y = 0x81, x = 0x7E, f = 3, u = 0, p = 0, b = 1, c = 0: no two fields alike. -/
theorem test_decode_write_background :
    decode 0b10000001011111100000001100101000#32 = .instr (.write .f11x18 0x7E#8 0x81#8 .white .black false false) := by decide
theorem test_decode_flush : decode 0b00000000000000000000000000001001#32 = .instr .flush := by decide
theorem test_decode_init : decode 0b00000000000000000000000000001010#32 = .instr .init := by decide
/-- idx = 133 (L1.1). -/
theorem test_decode_fbRead : decode 0b00000000100001010000000000001011#32 = .instr (.fbRead 133#16) := by decide
/-- idx = 680, f = 1 (R84). -/
theorem test_decode_glyphRead : decode 0b00000010101010000000000100001100#32 = .instr (.glyphRead .f5x7 680#16) := by decide
theorem test_decode_cursorRead : decode 0b00000000000000000000000000001101#32 = .instr .cursorRead := by decide
theorem test_decode_statusRead : decode 0b00000000000000000000000000001110#32 = .instr .statusRead := by decide
theorem test_decode_irqAck : decode 0b00000000000000000000000000001111#32 = .instr .irqAck := by decide
theorem test_decodeTableWord : decodeTableWord 32 0x00410154 = some (.writeChar 0x41#8 .f5x7 .white true) := by decide

/-- L2.1: the words with opcode 0. -/
theorem test_illegal_opcode :
    [0x00000000#32, 0xFFFFFFF0#32].map decode = [.illegal .opcodeZero, .illegal .opcodeZero] := by decide
/-- L2.1: the words with a must-be-zero bit set. -/
theorem test_illegal_reserved :
    ([0x00000812#32, 0x00000512#32, 0x00000032#32, 0x80000002#32, 0x00010005#32, 0x01410004#32, 0x00000024#32,
      0x0000011C#32, 0x0000008F#32].all fun w => decode w == .illegal .reservedBitSet) = true := by decide
/-- L2.1: the words whose font does not exist; font 7 in WRITE_STRING and GLYPH_READ. -/
theorem test_illegal_font :
    ([0x00000504#32, 0x00410554#32, 0x00000528#32, 0x00000707#32, 0x0000070C#32].all fun w =>
      decode w == .illegal .noSuchFont) = true := by decide

/-! ## WellFormed: an ill-formed term for each check -/

theorem test_wf_rejects_opcode_zero : legalWord 0x00000000#32 = false := by decide
theorem test_wf_rejects_reserved_bit : legalWord 0x00000812#32 = false := by decide
theorem test_wf_rejects_font_five : fontFieldLegal 0x00000504#32 = false ∧ legalWord 0x00000504#32 = false := by decide
theorem test_wf_accepts_font_four : fontFieldLegal 0x00000404#32 = true ∧ legalWord 0x00000404#32 = true := by decide
theorem test_wf_rejects_text_max_zero : ({ testCfg with textMax := 0 } : Config).wellFormed = false := by decide
theorem test_wf_rejects_text_max_512 : ({ testCfg with textMax := 512 } : Config).wellFormed = false := by decide
theorem test_wf_rejects_page_base : ({ testCfg with cmdPageBase := 0xB4#8 } : Config).wellFormed = false := by decide
theorem test_wf_accepts_defaults : testCfg.wellFormed = true := by decide
theorem test_wf_rejects_short_table : ({ tf with t5x7 := tfTable 664 } : GlyphStore).wellFormed = false := by decide +kernel
/-- R105: TF does not claim to be the repository's font (95_test_vectors.md). -/
theorem test_wf_tf_is_not_the_repository : tf.claimsRepository = false := by decide +kernel
theorem test_wf_memory_form :
    Memory.wf 4 [(1, 5#8), (0, 5#8)] = false ∧ Memory.wf 4 [(1, 0#8)] = false ∧ Memory.wf 4 [(4, 5#8)] = false ∧
    Memory.wf 4 [(0, 5#8), (3, 5#8)] = true := by decide

/-! ## One step each -/

/-- L2.3: DRAW_PIXEL 5, 13, W from reset sets FB[133] = 0x20. -/
theorem test_drawPixel : ((send 0x0D050011 fresh).fb, (send 0x0D050011 fresh).resp) = ([(133, 0x20#8)], ⟨.ok, 0#16⟩) := by
  decide +kernel
/-- L2.3: DRAW_PIXEL 0, 64, W from reset. -/
theorem test_drawPixel_outside : (send 0x40000011 fresh).fb = [] ∧ (send 0x40000011 fresh).resp = ⟨.pixelOutOfBounds, 0#16⟩ := by
  decide +kernel
/-- L2.3: FILL B. -/
theorem test_fill : (send 0x00000002 { fresh with fb := [(3, 1#8), (1023, 0xFF#8)] }).fb = [] := by decide +kernel
/-- R115: the writes of FILL W, at three of its addresses. -/
theorem test_fill_white :
    (fbWriteAll [0, 1, 1023] (fillByte .white) fresh).final.fb = [(0, 0xFF#8), (1, 0xFF#8), (1023, 0xFF#8)] := by
  decide +kernel
/-- L1.3: SET_CURSOR 127, 63 and SET_CURSOR 128, 0. -/
theorem test_setCursor : seen (send 0x3F7F0003 fresh) = (.ok, 0#16, 127#8, 63#8) := by decide +kernel
theorem test_setCursor_outside : seen (send 0x00800003 (at' 5#8 6#8 fresh)) = (.cursorOutOfBounds, 0#16, 5#8, 6#8) := by
  decide +kernel
/-- L2.4 case 3: WRITE_CHAR 'A', 5x7, W, 1. -/
theorem test_writeChar :
    (send 0x00410154 fresh).fb = [(1, 0x7F#8), (2, 0x2A#8), (3, 0x55#8), (4, 0x7F#8), (5, 0x7F#8)] ∧
    seen (send 0x00410154 fresh) = (.ok, 0x41#16, 6#8, 0#8) := by decide +kernel
/-- L2.4 case 19: WRITE_CHAR 'A', 5x7, W, 0 at (0, 60) runs off the bottom. -/
theorem test_writeChar_bottom :
    (send 0x00410114 (at' 0#8 60#8 fresh)).fb = [(896, 0xF0#8), (897, 0xA0#8), (898, 0x50#8), (899, 0xF0#8), (900, 0xF0#8)] ∧
    seen (send 0x00410114 (at' 0#8 60#8 fresh)) = (.pixelOutOfBounds, 0#16, 0#8, 60#8) := by decide +kernel
/-- R132. -/
theorem test_textClear : (send 0x00000005 (withAB fresh)).tlen = 0#9 := by decide +kernel
/-- L2.5 case 4: TEXT_PUSH 'T'. -/
theorem test_textPush : (send 0x00540006 fresh).text = [(0, 0x54#8)] ∧ (send 0x00540006 fresh).tlen = 1#9 := by decide +kernel
/-- L2.5 case 5: TEXT_PUSH with TLEN = 256. -/
theorem test_textPush_full :
    (send 0x00410006 { fresh with tlen := 256#9 }).resp = ⟨.operandOutOfRange, 0#16⟩ ∧
    (send 0x00410006 { fresh with tlen := 256#9 }).tlen = 256#9 := by decide +kernel
/-- L2.5 case 6: WRITE_STRING 5x7, W, 1 of "AB". -/
theorem test_writeString :
    (send 0x00000157 (withAB fresh)).fb.slice 0 13 =
      [0x00#8, 0x7F#8, 0x2A#8, 0x55#8, 0x7F#8, 0x7F#8, 0x00#8, 0x7F#8, 0x55#8, 0x2A#8, 0x7F#8, 0x7F#8, 0x00#8] ∧
    seen (send 0x00000157 (withAB fresh)) = (.ok, 0#16, 12#8, 0#8) := by decide +kernel
/-- L2.5 case 8: WRITE_STRING 5x7, W, 0 of "AB" from (120, 0) overflows at 'B'. -/
theorem test_writeString_overflow :
    seen (send 0x00000117 (withAB (at' 120#8 0#8 fresh))) = (.lineOverflow, 0#16, 125#8, 0#8) := by decide +kernel
/-- L2.5 case 13 with u = 1 and b = B: an empty text over a filled field, flushed. -/
theorem test_write : seen (send 0x01020198 fresh) = (.ok, 0#16, 2#8, 1#8) ∧ (send 0x01020198 fresh).trace.length = 64 := by
  decide +kernel
/-- L2.5 case 12: WRITE 16x26, 255, 2, B, W, 1, 1 fills, emits nothing and leaves the cursor. -/
theorem test_write_outside :
    seen (send 0x02FF04D8 (at' 70#8 2#8 { fresh with fb := [(7, 9#8)] })) = (.cursorOutOfBounds, 0#16, 70#8, 2#8) ∧
    (send 0x02FF04D8 (at' 70#8 2#8 { fresh with fb := [(7, 9#8)] })).fb = [] ∧
    (send 0x02FF04D8 fresh).trace = [] := by decide +kernel
/-- L2.6 flush 6: draw 9 false is page 2's select. -/
theorem test_flush_fails :
    (send 0x00000009 { fresh with answers := List.replicate 8 true ++ [false] }).trace.length = 18 ∧
    (send 0x00000009 { fresh with answers := List.replicate 8 true ++ [false] }).trace.getLast? = some (.cmd 0xB2#8 false) ∧
    (send 0x00000009 { fresh with answers := List.replicate 8 true ++ [false] }).resp = ⟨.pageAddressError, 0#16⟩ := by
  decide +kernel
/-- L2.6 flush 9: a burst. -/
theorem test_flush_burst :
    (send 0x00000009 freshBurst).burstBusy = true ∧ (send 0x00000009 freshBurst).trace.length = 2 ∧
    (send 0x00000009 freshBurst).resp = ⟨.ok, 0#16⟩ := by decide +kernel
/-- L2.6 INIT 1 with n = 2: 2 + 4 + 64 events. -/
theorem test_init : (send 0x0000000A fresh).trace.length = 70 ∧ seen (send 0x0000000A (at' 9#8 9#8 fresh)) = (.ok, 0#16, 0#8, 0#8) := by
  decide +kernel
/-- L2.6 INIT 4: the first draw is false. -/
theorem test_init_fails :
    (send 0x0000000A { fresh with answers := [false] }).trace = [.rst false, .rst true, .dc .cmd, .cmd 0xAE#8 false] ∧
    (send 0x0000000A { fresh with answers := [false] }).resp = ⟨.unknownError, 0#16⟩ := by decide +kernel
/-- L2.3: FB_READ 131 where FB[131] = 0xFD, and FB_READ 1024. -/
theorem test_fbRead : (send 0x0083000B { fresh with fb := [(131, 0xFD#8)] }).resp = ⟨.ok, 0xFD#16⟩ := by decide +kernel
theorem test_fbRead_outside : (send 0x0400000B fresh).resp = ⟨.operandOutOfRange, 0#16⟩ := by decide +kernel
/-- L2.2: the last row of 5x7 and the index after it. -/
theorem test_glyphRead : (send 0x0298010C fresh).resp = ⟨.ok, 0xDEAD#16⟩ := by decide +kernel
theorem test_glyphRead_outside : (send 0x0299010C fresh).resp = ⟨.pixelOutOfBounds, 0#16⟩ := by decide +kernel
/-- L1.4: row 0 of the repository's 5x7 font, at State.reset (R105). -/
theorem test_reset_glyph : GlyphStore.default.claimsRepository = true := by decide +kernel
/-- L2.5 case 3: cursor (2, 8). -/
theorem test_cursorRead : (send 0x0000000D (at' 2#8 8#8 fresh)).resp = ⟨.ok, 0x0802#16⟩ := by decide +kernel
/-- L2.6: 0x0800 during a burst, 0x0600 after it. -/
theorem test_statusRead : (send 0x0000000E inFlight).resp = ⟨.ok, 0x0800#16⟩ := by decide +kernel
theorem test_statusRead_flags :
    (send 0x0000000E (engineTurn inFlight)).resp = ⟨.ok, 0x0600#16⟩ ∧
    (send 0x0000000E { fresh with tlen := 256#9 }).resp = ⟨.ok, 0x0100#16⟩ := by decide +kernel
/-- L2.6 rows 4 and 5: IRQ_ACK after completion, and during a transfer. -/
theorem test_irqAck : irqLine (engineTurn inFlight) = true ∧ irqLine (send 0x0000000F (engineTurn inFlight)) = false := by
  decide +kernel
theorem test_irqAck_in_flight : (send 0x0000000F inFlight).burstBusy = true := by decide +kernel
/-- L2.7: FLUSH and DRAW_PIXEL during a burst fault. -/
theorem test_fault :
    (send 0x00000009 inFlight).fault = some .transferDuringBurst ∧
    (send 0x00000001 inFlight).fault = some .fbWriteDuringBurst := by decide +kernel

/-! ## Witnesses: for each obligation with hypotheses, a state and operands that meet all of them -/

/-- EncodeOfDecodedIsTheWord. -/
theorem wit_encodeOfDecoded : decode 0x020204D8#32 = .instr (.write .f16x26 2#8 2#8 .black .white true true) := by decide

/-- StepRunsTheDecodedCommand. -/
theorem wit_stepRuns :
    (fresh.withFetchWord 32 0x3F7F0003).inputs = .command 0x3F7F0003#32 :: [] ∧
    (fresh.withFetchWord 32 0x3F7F0003).fault = none ∧
    decode 0x3F7F0003#32 = .instr (.setCursor 127#8 63#8) := by decide +kernel

/-- IllegalWordWritesOnlyResp. -/
theorem wit_illegalWord :
    (fresh.withFetchWord 32 0x00000504).inputs = .command 0x00000504#32 :: [] ∧
    (fresh.withFetchWord 32 0x00000504).fault = none ∧ legalWord 0x00000504#32 = false := by decide +kernel

/-- FaultedBlockTakesNoStep, with an action left and with none. -/
theorem wit_faultedBlock :
    faulted.fault = some .fbWriteDuringBurst ∧ faulted.inputs = [] ∧
    (faulted.withFetchWord 32 0xF).inputs = .command 0xF#32 :: [] ∧ Input.command 0xF#32 ≠ .reset := by decide +kernel

/-- OnlyResetClearsAFault, both clauses. -/
theorem wit_onlyReset :
    (∃ t, exec .irqAck faulted = .next t ∧ faulted.fault ≠ none) ∧
    (∃ t, step (faulted.setInputs [.reset]) = .next t ∧ (faulted.setInputs [.reset]).fault ≠ none) :=
  ⟨⟨_, rfl, by decide⟩, ⟨_, rfl, by decide⟩⟩

/-- ResetInputRestoresTheBlock. -/
theorem wit_resetInput : (faulted.setInputs [.reset]).inputs = .reset :: [] := rfl

/-- A transfer in flight in a block whose engine is fair. -/
def inFlightFair : State := { inFlight with cfg := { inFlight.cfg with burstFailAdmitted := false } }

/-- EngineCompletesTheTransfer, the clauses of the engine's turn. -/
theorem wit_engine :
    ((inFlight.setInputs [.engine]).inputs = .engine :: [] ∧ (inFlight.setInputs [.engine]).fault = none ∧
      (inFlight.setInputs [.engine]).burstBusy = true) ∧
    ((fresh.setInputs [.engine]).inputs = .engine :: [] ∧ (fresh.setInputs [.engine]).fault = none ∧
      (fresh.setInputs [.engine]).burstBusy = false) := by decide +kernel

/-- EngineCompletesTheTransfer, the three clauses of the idle step. -/
theorem wit_idle :
    (fresh.inputs = [] ∧ fresh.fault = none ∧ fresh.burstBusy = false) ∧
    (inFlightFair.inputs = [] ∧ inFlightFair.fault = none ∧ inFlightFair.burstBusy = true ∧
      inFlightFair.cfg.burstFailAdmitted = false) ∧
    (inFlight.inputs = [] ∧ inFlight.fault = none ∧ inFlight.burstBusy = true ∧
      inFlight.cfg.burstFailAdmitted = true) := by decide +kernel

/-- FairEngineLeavesNoBurstForever. -/
theorem wit_fairEngine :
    inFlightFair.cfg.burstFailAdmitted = false ∧ inFlightFair.fault = none ∧ inFlightFair.burstBusy = true := by
  decide +kernel

/-- PixelAddressIsABijection: the corners, two pixels that are one, and a byte and a bit at their last values. -/
theorem wit_pixelAddress :
    (127 < 128 ∧ 63 < 64 ∧ 0 < 128 ∧ 0 < 64) ∧ (pixelByte 127 63 = 1023 ∧ pixelBit 63 = 7) ∧
    (1023 < 1024 ∧ 7 < 8) := by decide

/-- DrawPixelPaintsOnePixel and DrawnPixelReadsBack, at the last pixel. -/
theorem wit_drawPixel :
    fresh.burstBusy = false ∧ fresh.fb.wf fbBytes = true ∧ (127#8 : Byte).toNat < 128 ∧ (63#8 : Byte).toNat < 64 ∧
    (1023#16 : Half).toNat = pixelByte (127#8 : Byte).toNat (63#8 : Byte).toNat := by decide +kernel

/-- DrawPixelOutsideWritesNothing, by each coordinate at its first value outside. -/
theorem wit_drawOutside :
    (128 ≤ (128#8 : Byte).toNat ∨ 64 ≤ (0#8 : Byte).toNat) ∧ (128 ≤ (0#8 : Byte).toNat ∨ 64 ≤ (64#8 : Byte).toNat) := by decide

/-- FillSetsEveryByte, both clauses. -/
theorem wit_fill :
    (fresh.fb.wf fbBytes = true ∧ fresh.burstBusy = false) ∧ (inFlight.fb.wf fbBytes = true ∧ inFlight.burstBusy = true) := by
  decide +kernel

/-- FbReadAnswersTheByte: the last index inside and the first outside. -/
theorem wit_fbRead : (1023#16 : Half).toNat < 1024 ∧ 1024 ≤ (1024#16 : Half).toNat := by decide

/-- DrawAndFillAreIdempotent and DrawsToDistinctPixelsCommute: two pixels of one byte. -/
theorem wit_drawsCommute :
    fresh.burstBusy = false ∧ fresh.fb.wf fbBytes = true ∧ (3#8 : Byte).toNat < 128 ∧ (8#8 : Byte).toNat < 64 ∧
    (9#8 : Byte).toNat < 64 ∧ ((3#8, 8#8) : Byte × Byte) ≠ (3#8, 9#8) ∧ pixelByte 3 8 = pixelByte 3 9 := by decide +kernel

/-- GlyphIndexRange: characters 32, 126, 31 and 127, the last row, and a table of the default length. -/
theorem wit_glyphIndex :
    6 < Font.f5x7.height ∧ tf.tableOk .f5x7 = true ∧ (tf.table .f5x7).length = 95 * Font.f5x7.height ∧
    32 ≤ (32#8 : Byte).toNat ∧ (126#8 : Byte).toNat ≤ 126 ∧ (31#8 : Byte).toNat < 32 ∧ 127 ≤ (127#8 : Byte).toNat := by
  decide +kernel

/-- GlyphReadAnswersTheRow: the last row and the first index past the table. -/
theorem wit_glyphRead :
    (fresh.glyph.table .f5x7)[(664#16 : Half).toNat]? = some 0xDEAD#16 ∧
    (fresh.glyph.table .f5x7).length ≤ (665#16 : Half).toNat := by decide +kernel

/-- GlyphBitTestIsTheRowBit. -/
theorem wit_glyphBit : 15 < 16 ∧ glyphBit 0x0001#16 15 = true := by decide

/-- SetCursorSetsBothOrNeither: the last position inside and the first outside by each coordinate. -/
theorem wit_setCursor :
    ((127#8 : Byte).toNat < 128 ∧ (63#8 : Byte).toNat < 64) ∧ (128 ≤ (128#8 : Byte).toNat ∨ 64 ≤ (0#8 : Byte).toNat) ∧
    (128 ≤ (0#8 : Byte).toNat ∨ 64 ≤ (64#8 : Byte).toNat) := by decide

theorem storage_fresh : StorageInv fresh := by
  refine ⟨⟨?_, ?_⟩, ?_, ?_⟩ <;> first | decide +kernel | exact (by decide +kernel : (0 : Nat) ≤ 256)

/-- A state whose text is full: TLEN = TEXT_MAX = 2. -/
def fullText : State := { withAB fresh with cfg := { testCfg with textMax := 2 } }

/-- TextPushAppends, both clauses, and the boundary TLEN = TEXT_MAX - 1. -/
theorem wit_textPush :
    (StorageInv fresh ∧ fresh.tlen.toNat < fresh.cfg.textMax) ∧
    (StorageInv fullText ∧ fullText.tlen.toNat = fullText.cfg.textMax) := by
  refine ⟨⟨storage_fresh, by decide +kernel⟩, ⟨⟨?_, ?_⟩, ?_, ?_⟩, ?_⟩ <;>
    first | decide +kernel | exact (by decide +kernel : (2 : Nat) ≤ 2)

/-- PutsLoadsTheString. -/
theorem wit_puts : StorageInv fresh ∧ [0x54#8, 0x45#8, 0x53#8, 0x54#8].length ≤ fresh.cfg.textMax :=
  ⟨storage_fresh, by decide +kernel⟩

/-- WriteCharPaintsTheCharacter, under either fit check. -/
theorem wit_writeChar :
    (fresh.burstBusy = false ∧ fresh.fb.wf fbBytes = true ∧ FitsAt .observed (at' 120#8 0#8 fresh).cx.toNat 0 .f5x7 ∧
      rowsHeld fresh.glyph 0x41#8 .f5x7 = Font.f5x7.height ∧ rowsDrawn fresh.cfg 57 .f5x7 = Font.f5x7.height) ∧
    FitsAt .intended 111 37 .f16x26 :=
  ⟨⟨rfl, rfl, by simp only [FitsAt]; decide, by decide +kernel, by decide +kernel⟩, by simp only [FitsAt]; decide⟩

/-- WriteCharRejectedByTheFitCheck, both clauses: column 102 is the first that a 16x26 character does not fit, 101 the last
that it does. -/
theorem wit_writeCharRejected :
    ¬ FitsAt .observed (102#8 : Byte).toNat 0 .f16x26 ∧ FitsAt .observed (101#8 : Byte).toNat 0 .f16x26 ∧
    fresh.burstBusy = false :=
  ⟨by simp only [FitsAt]; decide, by simp only [FitsAt]; decide, rfl⟩

/-- WriteCharStopsAtTheFailingRow: by the lookup, with and without padding, and off the bottom without padding. -/
theorem wit_writeCharStops :
    (fresh.burstBusy = false ∧ fresh.fb.wf fbBytes = true ∧ FitsAt fresh.cfg.fitCheck fresh.cx.toNat fresh.cy.toNat .f5x7 ∧
      rowsDrawn fresh.cfg fresh.cy.toNat .f5x7 = Font.f5x7.height ∧
      min (rowsHeld fresh.glyph 0x7F#8 .f5x7) (rowsDrawn fresh.cfg fresh.cy.toNat .f5x7) < Font.f5x7.height) ∧
    (FitsAt .observed 0 60 .f5x7 ∧ min (rowsHeld fresh.glyph 0x41#8 .f5x7) (rowsDrawn fresh.cfg 60 .f5x7) = 4) :=
  ⟨⟨rfl, rfl, by simp only [FitsAt, fresh, testCfg, Config.default]; decide, by decide +kernel, by decide +kernel⟩,
    by simp only [FitsAt]; decide, by decide +kernel⟩

/-- WriteCharStopsInThePadding. -/
theorem wit_writeCharPadding :
    (at' 0#8 60#8 fresh).burstBusy = false ∧ (at' 0#8 60#8 fresh).fb.wf fbBytes = true ∧
    FitsAt (at' 0#8 60#8 fresh).cfg.fitCheck (0#8 : Byte).toNat (60#8 : Byte).toNat .f5x7 ∧
    rowsDrawn (at' 0#8 60#8 fresh).cfg (60#8 : Byte).toNat .f5x7 < Font.f5x7.height :=
  ⟨rfl, rfl, by simp only [FitsAt, at', fresh, testCfg, Config.default]; decide, by decide +kernel⟩

/-- WriteStringIsWriteCharInOrder and WriteIsItsStepsInOrder. -/
theorem wit_notFaulted : (withAB fresh).fault = none := rfl

theorem textFits_AB (x : Nat) (h : x ≤ 110) : TextFits (withAB fresh) .f5x7 true x 0 := by
  intro k hk
  have hk' : k < 2 := hk
  refine ⟨?_, ?_, by decide +kernel⟩
  · show x + k * 6 + 7 < 128 ∧ 0 + 7 < 128
    omega
  · interval_cases k <;> decide +kernel

/-- WriteStringPaintsTheText. -/
theorem wit_writeString :
    (withAB fresh).burstBusy = false ∧ (withAB fresh).fb.wf fbBytes = true ∧
    TextFits (withAB fresh) .f5x7 true (withAB fresh).cx.toNat (withAB fresh).cy.toNat :=
  ⟨rfl, rfl, textFits_AB 0 (by decide)⟩

/-- WritePaintsTheTextOverTheBackground, with a flush. -/
theorem wit_write :
    (withAB fresh).burstBusy = false ∧ (withAB fresh).fb.wf fbBytes = true ∧ (110#8 : Byte).toNat < 128 ∧
    (0#8 : Byte).toNat < 64 ∧ TextFits (withAB fresh) .f5x7 true (110#8 : Byte).toNat (0#8 : Byte).toNat ∧
    (withAB fresh).answers = okAnswers (flushDraws (withAB fresh).cfg) [true, true] :=
  ⟨rfl, rfl, by decide, by decide, textFits_AB 110 (by decide), by decide +kernel⟩

/-- FlushFollowsThePageProtocol, both clauses, the second at its first and last transfer. -/
theorem wit_flush :
    (fresh.burstBusy = false ∧ fresh.cfg.burstMode = false ∧ fresh.answers = okAnswers 32 [true, true]) ∧
    (31 < 32 ∧ ({ fresh with answers := List.replicate 31 true ++ [false] } : State).answers = okAnswers 31 (false :: [])) ∧
    (0 < 32 ∧ ({ fresh with answers := [false] } : State).answers = okAnswers 0 (false :: [])) := by decide +kernel

/-- BurstFlushStartsOneTransfer. -/
theorem wit_burstFlush :
    freshBurst.burstBusy = false ∧ freshBurst.cfg.burstMode = true ∧
    freshBurst.answers = true :: List.replicate 33 true := by decide +kernel

/-- InitRunsTheWholeSequence. -/
theorem wit_init :
    fresh.burstBusy = false ∧ fresh.fb.wf fbBytes = true ∧
    fresh.answers = okAnswers ((script fresh.cfg).length + flushDraws fresh.cfg) [] := by decide +kernel

/-- InitStopsAtAFailingScriptByte, at the last byte. -/
theorem wit_initScript :
    fresh.burstBusy = false ∧ script fresh.cfg = [0xAE#8] ++ 0xAF#8 :: [] ∧
    ({ fresh with answers := [true, false] } : State).answers = okAnswers [0xAE#8].length (false :: []) := by decide +kernel

/-- InitStopsAtAFailingFlush, in both modes. -/
theorem wit_initFlush :
    (fresh.burstBusy = false ∧ fresh.fb.wf fbBytes = true ∧ fresh.cfg.burstMode = false ∧ 0 < 32 ∧
      ({ fresh with answers := [true, true, false] } : State).answers =
        okAnswers ((script fresh.cfg).length + 0) (false :: [])) ∧
    (freshBurst.burstBusy = false ∧ freshBurst.fb.wf fbBytes = true ∧ freshBurst.cfg.burstMode = true ∧
      ({ freshBurst with answers := [true, true, false] } : State).answers =
        okAnswers (script freshBurst.cfg).length (false :: [])) := by decide +kernel

/-- WriteDuringBurstFaults: each clause, the text of one character and the last rows of the display. -/
theorem wit_writeDuringBurst :
    inFlight.burstBusy = true ∧ (127#8 : Byte).toNat < 128 ∧ (63#8 : Byte).toNat < 64 ∧
    (FitsAt inFlight.cfg.fitCheck inFlight.cx.toNat inFlight.cy.toNat .f5x7 ∧ inFlight.cy.toNat < 64) ∧
    0 < rowsHeld inFlight.glyph 0x41#8 .f5x7 ∧ rowsHeld inFlight.glyph 0x1F#8 .f5x7 = 0 ∧
    0 < (withAB inFlight).tlen.toNat ∧ 0 < rowsHeld inFlight.glyph ((withAB inFlight).text.read 0) .f5x7 :=
  ⟨rfl, by decide, by decide, ⟨by simp only [FitsAt, inFlight, freshBurst, fresh, testCfg, Config.default]; decide, by decide +kernel⟩,
    by decide +kernel, by decide +kernel, by decide +kernel, by decide +kernel⟩

/-- TransferDuringBurstFaults. -/
theorem wit_transferDuringBurst : inFlight.burstBusy = true ∧ freeDuringBurst .irqAck = true := by decide +kernel

/-- FaultsNeedATransferInFlight and RespIsWrittenUnlessFaulted: a command that completes and one that faults. -/
theorem wit_faults :
    (∃ t, exec .irqAck fresh = .next t ∧ fresh.burstBusy = false ∧ fresh.fault = none ∧ t.fault = none) ∧
    (∃ t, exec .flush inFlight = .next t ∧ inFlight.fault = none ∧ t.fault ≠ none) :=
  ⟨⟨_, rfl, rfl, rfl, rfl⟩, ⟨_, rfl, rfl, by decide +kernel⟩⟩

/-- StepTakesOneActionAndKeepsTheParameters. -/
theorem wit_step : ∃ t, step (fresh.withFetchWord 32 0xF) = .next t := ⟨_, rfl⟩

/-- CommandsWriteOnlyTheirRegisters and OnlyTransfersReachTheTransport, each clause. -/
theorem wit_writers :
    (∃ t, exec .irqAck fresh = .next t) ∧ writesFb .irqAck = false ∧ writesCy .irqAck = false ∧ writesCx .irqAck = false ∧
    writesText .irqAck = false ∧ transfers .irqAck = false ∧ transfers (.write .f5x7 0#8 0#8 .black .white true false) = false :=
  ⟨⟨_, rfl⟩, rfl, rfl, rfl, rfl, rfl, rfl⟩

/-- FlagsRiseOnlyAtCompletion, both clauses. -/
theorem wit_flags :
    (∃ t, exec .statusRead fresh = .next t ∧ Instr.statusRead ≠ .irqAck) ∧
    (∃ t, step (inFlight.setInputs [.engine]) = .next t ∧ inFlight.irqf0 = false ∧ t.irqf0 = true) :=
  ⟨⟨_, rfl, by decide⟩, ⟨_, rfl, rfl, rfl⟩⟩

/-- PollBudgetIsUnobservable. -/
theorem wit_pollBudget : ∃ t, exec .flush fresh = .next t := ⟨_, rfl⟩

/-- TextBeyondTlenIsUnobservable: the texts differ beyond TLEN = 1. -/
theorem wit_textBeyond :
    ({ withAB fresh with tlen := 1#9 } : State).text.wf 256 = true ∧ Memory.wf 256 [(0, 0x41#8), (1, 0x5A#8)] = true ∧
    (∀ k, k < 1 → Memory.read [(0, 0x41#8), (1, 0x5A#8)] k = ({ withAB fresh with tlen := 1#9 } : State).text.read k) ∧
    ∃ t, exec (.writeString .f5x5 .white false) { withAB fresh with tlen := 1#9 } = .next t :=
  ⟨by decide +kernel, by decide +kernel, by decide +kernel, ⟨_, rfl⟩⟩

/-- The premises of StepKeepsStorageSound, CursorBound, StepKeepsTheBurstSnapshot, StepKeepsFaultsInFlight and
StepKeepsSyncModeQuiet, in a state with a transfer in flight or, for the last, in sync mode. -/
theorem wit_invariants :
    (StorageInv fresh ∧ ∃ t, step fresh = .next t) ∧
    (CursorInv (at' 129#8 63#8 fresh) ∧ ∃ t, step (at' 129#8 63#8 fresh) = .next t) ∧
    (BurstInv inFlight ∧ inFlight.burstBusy = true ∧ ∃ t, step (inFlight.setInputs [.engine]) = .next t) ∧
    (FaultInv faulted ∧ BurstInv faulted ∧ ∃ t, step (faulted.setInputs [.reset]) = .next t) ∧
    (SyncInv fresh ∧ fresh.cfg.burstMode = false) := by
  refine ⟨⟨storage_fresh, _, rfl⟩, ⟨?_, _, rfl⟩, ⟨?_, rfl, _, rfl⟩, ⟨?_, ?_, _, rfl⟩, ?_, rfl⟩
  · exact ⟨by decide, by decide⟩
  · exact fun _ => ⟨rfl, rfl⟩
  · exact fun _ => ⟨rfl, rfl⟩
  · exact fun _ => ⟨rfl, rfl⟩
  · exact fun _ => ⟨rfl, rfl, rfl, rfl⟩

end Sys2Proof.Tests
end

section
/-! # Commands as runs of single updates

Every command is a run of a few single updates of the state, and then writes RESP or raises a fault. `Update` lists those
updates once, with what allows each; the statements about what commands change and what every step keeps are read off it. -/

namespace Sys2Proof.Machine

open Sys2Proof.Claims

/-! ## The updates -/

/-- One update a command makes before it ends, with what allows it: which commands, in which states. -/
inductive Update (i : Instr) (s : State) : State → Prop
  /-- Framebuffer bytes, by FBWrite, with no transfer in flight (R113). -/
  | paint (m : Memory) (hi : writesFb i = true) (hidle : s.burstBusy = false)
      (hwf : s.fb.wf fbBytes = true → m.wf fbBytes = true) : Update i s (s.setFb m)
  /-- CX, by a character (R143, R146). -/
  | column (x : Byte) (hi : writesCx i = true) (hx : CxReach s x) : Update i s (s.setCx x)
  /-- Both coordinates, inside the display (R130). -/
  | cursor (x y : Byte) (hi : writesCy i = true) (hx : x.toNat < 128) (hy : y.toNat < 64) : Update i s (s.setCursor x y)
  /-- TEXT_CLEAR (R132). -/
  | clearText (hi : i = .textClear) : Update i s (s.setText s.text 0#9)
  /-- TEXT_PUSH of a text that is not full (R133). -/
  | pushText (ch : Byte) (hi : i = .textPush ch) (hlen : s.tlen.toNat ≠ s.cfg.textMax) :
      Update i s (s.setText (s.text.write s.tlen.toNat ch) (s.tlen + 1#9))
  /-- IRQ_ACK (R183). -/
  | ackIrq (hi : i = .irqAck) : Update i s (s.setIrq false)
  /-- The reset line, with no transfer in flight (R180, R182). -/
  | pulse (v : Bool) (hi : transfers i = true) (hidle : s.burstBusy = false) : Update i s (s.driveRst v)
  /-- A run of transfers, with none in flight (R172, R173). -/
  | send (t : State) (hi : transfers i = true) (hidle : s.burstBusy = false) (hsent : Sent s t) : Update i s t
  /-- The start of a transfer: the whole framebuffer has just been offered and taken (R179). -/
  | startBurst (hi : transfers i = true) (hmode : s.cfg.burstMode = true)
      (hlast : s.trace.getLast? = some (.data 0 fbBytes (s.fb.slice 0 fbBytes) true)) : Update i s (s.setBusy true)

/-- Updates of one command, one after another. -/
abbrev Updates (i : Instr) : State → State → Prop := Relation.ReflTransGen (Update i)

theorem Updates.preserves {i : Instr} {P : State → Prop} (hP : ∀ u v, Update i u v → P u → P v) {s t : State}
    (h : Updates i s t) (hs : P s) : P t := by
  induction h with
  | refl => exact hs
  | tail _ hstep ih => exact hP _ _ hstep ih

theorem Updates.keeps {i : Instr} {β : Type} (f : State → β) (hf : ∀ u v, Update i u v → f v = f u) {s t : State}
    (h : Updates i s t) : f t = f s :=
  h.preserves (P := fun u => f u = f s) (fun u v huv hu => (hf u v huv).trans hu) rfl

/-- What holds no line level, no event and no answer is as before after a run of transfers. -/
theorem Sent.keeps {β : Type} (f : State → β)
    (hf : ∀ s dc trace answers draws, f { s with dc := dc, trace := trace, answers := answers, draws := draws } = f s)
    {s t : State} (h : Sent s t) : f t = f s := by
  obtain ⟨l, ht⟩ := h
  rw [ht]
  exact hf s _ _ _ _

/-- Every operation inside a command leaves FAULT and RESP alone: a fault is raised, and RESP written, only at its end. -/
theorem Update.fault_resp {i : Instr} {s t : State} (h : Update i s t) : t.fault = s.fault ∧ t.resp = s.resp := by
  cases h with
  | send _ _ _ hsent => exact ⟨hsent.keeps (·.fault) fun _ _ _ _ _ => rfl, hsent.keeps (·.resp) fun _ _ _ _ _ => rfl⟩
  | _ => exact ⟨rfl, rfl⟩

/-! ## Operations as runs of updates -/

/-- An operation makes only updates the command may make, and raises a fault only with a transfer in flight. -/
inductive Run.Follows {α : Type} (i : Instr) (s : State) : Run α → Prop
  | ends (a : α) {t : State} (h : Updates i s t) : Follows i s (.ret a t)
  | faults (f : FaultReason) {t : State} (h : Updates i s t) (hbusy : t.burstBusy = true) : Follows i s (.raised (t.raise f))

theorem Run.Follows.ret {α : Type} {i : Instr} {s : State} (a : α) : (Run.ret a s).Follows i s := .ends a .refl

theorem Run.Follows.update {α : Type} {i : Instr} {s t : State} (a : α) (h : Update i s t) : (Run.ret a t).Follows i s :=
  .ends a (.single h)

theorem Run.Follows.raise {α : Type} {i : Instr} {s : State} (f : FaultReason) (h : s.burstBusy = true) :
    (Run.raised (s.raise f) : Run α).Follows i s := .faults f .refl h

theorem Run.Follows.after {α : Type} {i : Instr} {s t : State} {r : Run α} (h : Updates i s t) (hr : r.Follows i t) :
    r.Follows i s := by
  cases hr with
  | ends a hu => exact .ends a (h.trans hu)
  | faults f hu hbusy => exact .faults f (h.trans hu) hbusy

theorem Run.Follows.andThen {α β : Type} {i : Instr} {s : State} {r : Run α} {k : α → State → Run β}
    (hr : r.Follows i s) (hk : ∀ a t, (k a t).Follows i t) : (r.andThen k).Follows i s := by
  cases hr with
  | ends a hu => exact .after hu (hk a _)
  | faults f hu hbusy => exact .faults f hu hbusy

theorem Run.Follows.ite {α : Type} {i : Instr} {s : State} {p : Prop} [Decidable p] {r q : Run α} (hr : r.Follows i s)
    (hq : q.Follows i s) : (if p then r else q).Follows i s := by
  split
  · exact hr
  · exact hq

theorem putPixel_follows {i : Instr} (hi : writesFb i = true) (x y : Nat) (c : Color) (s : State) :
    (putPixel x y c s).Follows i s := by
  cases hb : s.burstBusy with
  | false =>
    obtain ⟨ok, m, he, hm⟩ := putPixel_idle x y c hb
    exact he ▸ .update ok (.paint m hi hb hm)
  | true =>
    rcases putPixel_busy x y c hb with ⟨ok, he⟩ | he
    · exact he ▸ .ret ok
    · exact he ▸ .raise _ hb

theorem fbFill_follows {i : Instr} (hi : writesFb i = true) (v : Byte) (s : State) : (fbFill v s).Follows i s := by
  cases hb : s.burstBusy with
  | false =>
    rw [fbFill_idle v hb]
    exact .update () (.paint _ hi hb (filled_wf v))
  | true =>
    rw [fbFill_busy v hb]
    exact .raise _ hb

theorem moveCursor_follows {i : Instr} (hi : writesCy i = true) (x y : Byte) (s : State) :
    (moveCursor x y s).Follows i s := by
  rcases moveCursor_cases x y s with ⟨hx, hy, he⟩ | ⟨-, he⟩
  · exact he ▸ .update okResp (.cursor x y hi hx hy)
  · exact he ▸ .ret (failResp .cursorOutOfBounds)

section
variable {i : Instr} (hfb : writesFb i = true) (hcx : writesCx i = true)
include hfb hcx

/-- Painting and then moving CX, with no transfer in flight. -/
theorem updates_paint_column {s : State} {m : Memory} {x : Byte} (hb : s.burstBusy = false)
    (hm : s.fb.wf fbBytes = true → m.wf fbBytes = true) (hx : CxReach s x) : Updates i s ((s.setFb m).setCx x) :=
  .tail (.single (.paint m hfb hb hm)) (.column x hcx hx)

theorem rasterChar_follows (ch : Byte) (f : Font) (c : Color) (p : Bool) (s : State) :
    (rasterChar ch f c p s).Follows i s := by
  cases hb : s.burstBusy with
  | false =>
    obtain ⟨r, m, x, he, hm, hx⟩ := rasterChar_idle ch f c p hb
    exact he ▸ Run.Follows.ends r (updates_paint_column hfb hcx hb hm hx)
  | true =>
    obtain ⟨x, hx, ⟨r, he⟩ | he⟩ := rasterChar_busy ch f c p hb
    · exact he ▸ .update r (.column x hcx hx)
    · exact he ▸ .after (.single (.column x hcx hx)) (.raise _ hb)

theorem rasterText_follows (f : Font) (c : Color) (p : Bool) (text : List Byte) (s : State) :
    (rasterText f c p text s).Follows i s := by
  induction text generalizing s with
  | nil => exact .ret okResp
  | cons ch rest ih =>
    exact (rasterChar_follows hfb hcx ch f c p s).andThen fun r t => .ite (ih t) (.ret _)

end

section
variable {i : Instr} (hi : transfers i = true)
include hi

theorem flush_follows (s : State) : (flush s).Follows i s := by
  cases hb : s.burstBusy with
  | false =>
    obtain ⟨r, t, he, ⟨hsent, -⟩ | ⟨hmode, -, u, hsent, hlast, ht⟩⟩ := flush_idle hb
    · exact he ▸ .update r (.send t hi hb hsent)
    · subst ht
      exact he ▸ .after (.single (.send u hi hb hsent))
        (.update r (.startBurst hi (hsent.cfg ▸ hmode) (hsent.fb ▸ hlast)))
  | true => exact flush_busy hb ▸ .raise _ hb

theorem sendScript_follows (script : List Byte) {s : State} (hb : s.burstBusy = false) :
    (sendScript script s).Follows i s := by
  obtain ⟨ok, t, he, hsent⟩ := sendScript_idle script hb
  exact he ▸ .update ok (.send t hi hb hsent)

theorem resetPulse_updates {s : State} (hb : s.burstBusy = false) : Updates i s (resetPulse s) := by
  unfold resetPulse
  split
  · exact .tail (.single (.pulse false hi hb)) (.pulse true hi hb)
  · exact .refl

end

@[simp] theorem resetPulse_burstBusy (s : State) : (resetPulse s).burstBusy = s.burstBusy := by
  unfold resetPulse
  split <;> rfl

/-! ## Commands as runs of updates -/

/-- How a command runs up to its end, where `completed` writes RESP or leaves the fault (R14, R24, R216). -/
def course (i : Instr) (s : State) : Run Resp :=
  match i with
  | .drawPixel x y c =>
    (putPixel x.toNat y.toNat c s).andThen fun ok t => .ret (if ok then okResp else failResp .pixelOutOfBounds) t
  | .fill c => (fbFill (fillByte c) s).andThen fun _ t => .ret okResp t
  | .setCursor x y => moveCursor x y s
  | .writeChar ch f c p => rasterChar ch f c p s
  | .textClear => .ret okResp (s.setText s.text 0#9)
  | .textPush ch =>
    if s.tlen.toNat = s.cfg.textMax then .ret (failResp .operandOutOfRange) s
    else .ret okResp (s.setText (s.text.write s.tlen.toNat ch) (s.tlen + 1#9))
  | .writeString f c p => rasterText f c p (textChars s) s
  | .write f x y b c p u =>
    (fbFill (fillByte b) s).andThen fun _ s1 =>
    (moveCursor x y s1).andThen fun r s2 =>
    if r.status ≠ .ok then .ret (failResp r.status) s2 else
    (rasterText f c p (textChars s2) s2).andThen fun r s3 =>
    if r.status ≠ .ok then .ret (failResp r.status) s3 else
    if u then flush s3 else .ret okResp s3
  | .flush => flush s
  | .init =>
    if s.burstBusy then .raised (s.raise .transferDuringBurst) else
    (sendScript (initScript s.cfg) (resetPulse s)).andThen fun ok s1 =>
    if !ok then .ret (failResp .unknownError) s1 else
    (fbFill 0x00#8 s1).andThen fun _ s2 =>
    (flush s2).andThen fun r s3 =>
    if r.status ≠ .ok then .ret (failResp r.status) s3 else
    .ret okResp (s3.setCursor 0#8 0#8)
  | .fbRead idx =>
    .ret (if fbBytes ≤ idx.toNat then failResp .operandOutOfRange else dataResp (zext16 (s.fb.read idx.toNat))) s
  | .glyphRead f idx =>
    .ret (match glyphRow s.glyph f (idx.toNat : Int) with
          | some row => dataResp row
          | none => failResp .pixelOutOfBounds) s
  | .cursorRead => .ret (dataResp (cursorData s)) s
  | .statusRead => .ret (dataResp (statusWord s)) s
  | .irqAck => .ret okResp (s.setIrq false)

theorem exec_eq_completed (i : Instr) (s : State) : exec i s = completed (course i s) := by
  cases i <;> rfl

theorem course_write_follows (f : Font) (x y : Byte) (b c : Color) (p u : Bool) (s : State) :
    (course (.write f x y b c p u) s).Follows (.write f x y b c p u) s := by
  rw [course]
  refine .andThen (fbFill_follows rfl _ s) fun _ s1 => .andThen (moveCursor_follows rfl x y s1) fun r s2 => ?_
  refine .ite (.ret _) ((rasterText_follows rfl rfl f c p _ s2).andThen fun r s3 => .ite (.ret _) ?_)
  cases u with
  | false => exact .ret okResp
  | true => exact flush_follows rfl s3

theorem course_init_follows (s : State) : (course .init s).Follows .init s := by
  rw [course]
  split
  case isTrue hb => exact .raise _ hb
  case isFalse hb =>
    rw [Bool.not_eq_true] at hb
    refine .after (resetPulse_updates rfl hb) ?_
    refine (sendScript_follows rfl _ ((resetPulse_burstBusy s).trans hb)).andThen fun ok s1 => .ite (.ret _) ?_
    refine .andThen (fbFill_follows rfl _ s1) fun _ s2 => .andThen (flush_follows rfl s2) fun r s3 => .ite (.ret _) ?_
    exact .update okResp (.cursor _ _ rfl (by decide) (by decide))

theorem course_follows (i : Instr) (s : State) : (course i s).Follows i s := by
  cases i with
  | drawPixel x y c => exact (putPixel_follows rfl _ _ c s).andThen fun ok t => .ret _
  | fill c =>
    rw [course]
    exact .andThen (fbFill_follows rfl _ s) fun _ t => .ret okResp
  | setCursor x y => exact moveCursor_follows rfl x y s
  | writeChar ch f c p => exact rasterChar_follows rfl rfl ch f c p s
  | textClear => exact .update okResp (.clearText rfl)
  | textPush ch =>
    rw [course]
    split
    case isTrue => exact .ret _
    case isFalse hlen => exact .update okResp (.pushText ch rfl hlen)
  | writeString f c p => exact rasterText_follows rfl rfl f c p _ s
  | write f x y b c p u => exact course_write_follows f x y b c p u s
  | flush => exact flush_follows rfl s
  | init => exact course_init_follows s
  | irqAck => exact .update okResp (.ackIrq rfl)
  | fbRead _ | glyphRead _ _ | cursorRead | statusRead => exact .ret _

/-- What a command can do: some updates, and then it writes RESP, or raises a fault with a transfer in flight. -/
theorem exec_cases {i : Instr} {s t : State} (h : exec i s = .next t) :
    ∃ u, Updates i s u ∧ ((∃ r, t = u.setResp r) ∨ (u.burstBusy = true ∧ ∃ f, t = u.raise f)) := by
  have hfollows := course_follows i s
  rw [exec_eq_completed] at h
  generalize course i s = r at h hfollows
  cases hfollows with
  | ends r hu =>
    cases h
    exact ⟨_, hu, .inl ⟨r, rfl⟩⟩
  | faults f hu hbusy =>
    cases h
    exact ⟨_, hu, .inr ⟨hbusy, f, rfl⟩⟩

/-- What every update, the response and a raised fault keep, a command keeps. -/
theorem exec_preserves {i : Instr} {P : State → Prop} (hupdate : ∀ u v, Update i u v → P u → P v)
    (hrespond : ∀ u r, P u → P (u.setResp r)) (hraise : ∀ u f, u.burstBusy = true → P u → P (u.raise f)) {s t : State}
    (h : exec i s = .next t) (hs : P s) : P t := by
  obtain ⟨u, hu, ⟨r, ht⟩ | ⟨hbusy, f, ht⟩⟩ := exec_cases h
  · exact ht ▸ hrespond u r (hu.preserves hupdate hs)
  · exact ht ▸ hraise u f hbusy (hu.preserves hupdate hs)

/-- A piece of the state that no update writes, nor a response or a raised fault, is as before after a command. -/
theorem exec_keeps {i : Instr} {β : Type} (f : State → β) (hupdate : ∀ u v, Update i u v → f v = f u)
    (hrespond : ∀ u r, f (u.setResp r) = f u) (hraise : ∀ u r, f (u.raise r) = f u) {s t : State}
    (h : exec i s = .next t) : f t = f s :=
  exec_preserves (P := fun u => f u = f s) (fun u v huv hu => (hupdate u v huv).trans hu)
    (fun u r hu => (hrespond u r).trans hu) (fun u r _ hu => (hraise u r).trans hu) h rfl

end Sys2Proof.Machine
end

section
/-! # Invariants of every step

`StepInvariant P` holds what has to be shown of a predicate `P` for every step to keep it: one field for each thing a step
can do. -/

namespace Sys2Proof.Machine

open Sys2Proof.Safety Sys2Proof.Claims

/-- What a turn without a command can do: nothing but the model's own counter, or the completion of a transfer in flight
(R190, log 3). -/
def Turn (s t : State) : Prop :=
  ∃ n, t = { s with engineTurns := n } ∨ (s.burstBusy = true ∧ t = burstComplete { s with engineTurns := n })

theorem engineTurn_turn (s : State) : Turn s (engineTurn s) := by
  refine ⟨s.engineTurns, ?_⟩
  unfold engineTurn
  split
  case isTrue hb => exact .inr ⟨hb, rfl⟩
  case isFalse => exact .inl rfl

theorem idleTurn_turn (s : State) : Turn s (idleTurn s) := by
  unfold idleTurn
  split_ifs with hb
  · exact ⟨s.engineTurns + 1, .inr ⟨hb, rfl⟩⟩
  · exact ⟨s.engineTurns + 1, .inl rfl⟩
  · exact ⟨s.engineTurns, .inr ⟨hb, rfl⟩⟩
  · exact ⟨s.engineTurns, .inl rfl⟩

/-- `P` is kept by each thing a step can do: an action leaving the list, a reset, the engine's completion, a turn of the
model's own counter, an update of a command, a response, and a raised fault. -/
structure StepInvariant (P : State → Prop) : Prop where
  inputs : ∀ s l, P s → P (s.setInputs l)
  reset : ∀ s, P s → P s.applyReset
  complete : ∀ s, s.burstBusy = true → P s → P (burstComplete s)
  turns : ∀ s n, P s → P { s with engineTurns := n }
  update : ∀ i s t, Update i s t → P s → P t
  respond : ∀ s r, P s → P (s.setResp r)
  fault : ∀ s f, s.burstBusy = true → P s → P (s.raise f)

namespace StepInvariant

variable {P : State → Prop} (hP : StepInvariant P)
include hP

theorem turn {s t : State} (h : Turn s t) (hs : P s) : P t := by
  obtain ⟨n, rfl | ⟨hbusy, rfl⟩⟩ := h
  · exact hP.turns s n hs
  · exact hP.complete _ hbusy (hP.turns s n hs)

theorem exec {i : Instr} {s t : State} (h : exec i s = .next t) (hs : P s) : P t :=
  exec_preserves (hP.update i) hP.respond hP.fault h hs

theorem step {s t : State} (hs : P s) (h : step s = .next t) : P t := by
  rcases step_cases h with ⟨rest, -, rfl⟩ | ⟨-, a, rest, -, -, rfl⟩ | ⟨-, -, rfl⟩ | ⟨-, rest, -, rfl⟩ |
    ⟨-, w, rest, why, -, -, rfl⟩ | ⟨-, w, rest, i, -, -, h⟩
  · exact hP.reset _ (hP.inputs s rest hs)
  · exact hP.inputs s rest hs
  · exact hP.turn (idleTurn_turn s) hs
  · exact hP.turn (engineTurn_turn _) (hP.inputs s rest hs)
  · exact hP.respond _ _ (hP.inputs s rest hs)
  · exact hP.exec h (hP.inputs s rest hs)

end StepInvariant

/-! ## Storage -/

/-- TEXT_PUSH below TEXT_MAX does not wrap TLEN: TEXT_MAX fits 9 bits (R11, R133). -/
theorem toNat_tlen_succ {n : BitVec 9} {m : Nat} (hm : m ≤ 511) (h : n.toNat < m) : (n + 1#9).toNat = n.toNat + 1 := by
  rw [BitVec.toNat_add_of_lt (by simp; omega)]
  rfl

theorem textMax_le_of_wellFormed {c : Config} (h : c.wellFormed = true) : c.textMax ≤ 511 := by
  simp only [Config.wellFormed, Config.textMaxOk, Bool.and_eq_true, decide_eq_true_eq] at h
  exact h.1.2

theorem update_keeps_storage {i : Instr} {s t : State} (h : Update i s t) (hs : StorageInv s) : StorageInv t := by
  obtain ⟨⟨hfb, htext⟩, hlen, hcfg⟩ := hs
  cases h with
  | paint m _ _ hm => exact ⟨⟨hm hfb, htext⟩, hlen, hcfg⟩
  | clearText => exact ⟨⟨hfb, htext⟩, Nat.zero_le _, hcfg⟩
  | pushText ch _ hne =>
    have hlt : s.tlen.toNat < s.cfg.textMax := lt_of_le_of_ne hlen hne
    have hsucc := toNat_tlen_succ (textMax_le_of_wellFormed hcfg) hlt
    refine ⟨⟨hfb, Memory.write_wf htext ch hlt⟩, ?_, hcfg⟩
    show (s.tlen + 1#9).toNat ≤ s.cfg.textMax
    omega
  | send _ _ _ hsent =>
    obtain ⟨l, ht⟩ := hsent
    rw [ht]
    exact ⟨⟨hfb, htext⟩, hlen, hcfg⟩
  | column | cursor | ackIrq | pulse | startBurst => exact ⟨⟨hfb, htext⟩, hlen, hcfg⟩

theorem storageInv_stepInvariant : StepInvariant StorageInv where
  inputs _ _ hs := hs
  reset _ hs := ⟨⟨rfl, rfl⟩, Nat.zero_le _, hs.2.2⟩
  complete _ _ hs := hs
  turns _ _ hs := hs
  update _ _ _ := update_keeps_storage
  respond _ _ hs := hs
  fault _ _ _ hs := hs

/-- Settles O55: every thing a step can do keeps the storage sound; TEXT_PUSH stops at TEXT_MAX, so TLEN does not wrap. -/
theorem stepKeepsStorageSound : Obligations.StepKeepsStorageSound :=
  fun _ _ => storageInv_stepInvariant.step

/-! ## The cursor -/

/-- The cursor row a command may leave: the one it found, or one inside the display (R35). -/
def CyReach (s : State) (y : Byte) : Prop := y = s.cy ∨ y.toNat ≤ 63

theorem update_cursor_reach {i : Instr} {s t : State} (h : Update i s t) : CxReach s t.cx ∧ CyReach s t.cy := by
  cases h with
  | column x _ hx => exact ⟨hx, .inl rfl⟩
  | cursor x y _ hx hy => exact ⟨.inr (Nat.le_trans (Nat.le_of_lt hx) (by decide)), .inr (Nat.le_of_lt_succ hy)⟩
  | send _ _ _ hsent =>
    obtain ⟨l, ht⟩ := hsent
    rw [ht]
    exact ⟨.inl rfl, .inl rfl⟩
  | paint | clearText | pushText | ackIrq | pulse | startBurst => exact ⟨.inl rfl, .inl rfl⟩

theorem CyReach.trans {s t : State} {y : Byte} (h1 : CyReach s t.cy) (h2 : CyReach t y) : CyReach s y := by
  rcases h2 with h2 | h2
  · exact h2 ▸ h1
  · exact .inr h2

theorem exec_cursor_reach {i : Instr} {s t : State} (h : exec i s = .next t) : CxReach s t.cx ∧ CyReach s t.cy :=
  exec_preserves (P := fun u => CxReach s u.cx ∧ CyReach s u.cy)
    (fun _ _ huv hu => ⟨hu.1.trans (update_cursor_reach huv).1, hu.2.trans (update_cursor_reach huv).2⟩)
    (fun _ _ hu => hu) (fun _ _ _ hu => hu) h ⟨.inl rfl, .inl rfl⟩

theorem cursorInv_of_reach {s t : State} (hs : CursorInv s) (h : CxReach s t.cx ∧ CyReach s t.cy) : CursorInv t := by
  obtain ⟨hx | hx, hy | hy⟩ := h
  · exact ⟨hx ▸ hs.1, hy ▸ hs.2⟩
  · exact ⟨hx ▸ hs.1, hy⟩
  · exact ⟨hx, hy ▸ hs.2⟩
  · exact ⟨hx, hy⟩

theorem cursorInv_stepInvariant : StepInvariant CursorInv where
  inputs _ _ hs := hs
  reset _ _ := ⟨Nat.zero_le _, Nat.zero_le _⟩
  complete _ _ hs := hs
  turns _ _ hs := hs
  update _ _ _ h hs := cursorInv_of_reach hs (update_cursor_reach h)
  respond _ _ hs := hs
  fault _ _ _ hs := hs

/-- Settles O56: only a character and SET_CURSOR's check write a coordinate, each within its bound. -/
theorem cursorBound : Obligations.CursorBound :=
  ⟨fun _ _ _ => exec_cursor_reach, fun _ _ => cursorInv_stepInvariant.step⟩

/-! ## The transfer in flight -/

theorem burstInv_of_not_busy {s : State} (h : s.burstBusy = false) : BurstInv s := by
  intro hbusy
  rw [h] at hbusy
  contradiction

theorem update_keeps_burst {i : Instr} {s t : State} (h : Update i s t) (hs : BurstInv s) : BurstInv t := by
  cases h with
  | paint m _ hidle | pulse v _ hidle => exact burstInv_of_not_busy hidle
  | send _ _ hidle hsent => exact burstInv_of_not_busy (hsent.burstBusy.trans hidle)
  | startBurst _ hmode hlast => exact fun _ => ⟨hmode, hlast⟩
  | column | cursor | clearText | pushText | ackIrq => exact hs

theorem burstInv_stepInvariant : StepInvariant BurstInv where
  inputs _ _ hs := hs
  reset _ _ := burstInv_of_not_busy rfl
  complete _ _ _ := burstInv_of_not_busy rfl
  turns _ _ hs := hs
  update _ _ _ := update_keeps_burst
  respond _ _ hs := hs
  fault _ _ _ hs := hs

/-- Settles O57: framebuffer writes and events need BURST_BUSY = 0, and the burst that sets it has just sent FB. -/
theorem stepKeepsTheBurstSnapshot : Obligations.StepKeepsTheBurstSnapshot :=
  fun _ _ => burstInv_stepInvariant.step

/-! ## Sync mode -/

theorem burstMode_of_syncInv_of_busy {s : State} (hs : SyncInv s) (hbusy : s.burstBusy = true) : s.cfg.burstMode = true := by
  by_contra hmode
  have := (hs (Bool.not_eq_true _ ▸ hmode)).1
  simp [this] at hbusy

theorem syncInv_of_burst {s : State} (hmode : s.cfg.burstMode = true) : SyncInv s := by
  intro hsync
  rw [hmode] at hsync
  contradiction

theorem update_keeps_sync {i : Instr} {s t : State} (h : Update i s t) (hs : SyncInv s) : SyncInv t := by
  cases h with
  | startBurst _ hmode => exact syncInv_of_burst hmode
  | ackIrq => exact fun hmode => ⟨(hs hmode).1, rfl, rfl, (hs hmode).2.2.2⟩
  | send _ _ _ hsent =>
    obtain ⟨l, ht⟩ := hsent
    rw [ht]
    exact hs
  | paint | column | cursor | clearText | pushText | pulse => exact hs

theorem syncInv_stepInvariant : StepInvariant SyncInv where
  inputs _ _ hs := hs
  reset _ _ := fun _ => ⟨rfl, rfl, rfl, rfl⟩
  complete s hbusy hs := syncInv_of_burst (burstMode_of_syncInv_of_busy (s := s) hs hbusy)
  turns _ _ hs := hs
  update _ _ _ := update_keeps_sync
  respond _ _ hs := hs
  fault s _ hbusy hs := syncInv_of_burst (burstMode_of_syncInv_of_busy (s := s) hs hbusy)

/-- Bits [11:9] of the status word are BURST_BUSY, IRQF1 and IRQF0 (R184). -/
theorem statusWord_flags_of_clear {s : State} (hbusy : s.burstBusy = false) (h0 : s.irqf0 = false) (h1 : s.irqf1 = false) :
    (statusWord s).extractLsb' 9 3 = 0#3 := by
  apply BitVec.eq_of_getLsbD_eq
  intro k _
  simp [statusWord, hbusy, h0, h1]

/-- Settles O59: a fault and a completion need a transfer in flight, and only a burst starts one. -/
theorem stepKeepsSyncModeQuiet : Obligations.StepKeepsSyncModeQuiet := by
  refine ⟨fun _ _ => syncInv_stepInvariant.step, fun s hs hmode => ?_⟩
  obtain ⟨hbusy, h0, h1, -⟩ := hs hmode
  exact ⟨statusWord_flags_of_clear hbusy h0 h1, by simp [irqLine, h0, h1]⟩

end Sys2Proof.Machine
end

section
/-! # What commands and steps leave unchanged -/

namespace Sys2Proof.Machine

open Sys2Proof.Safety Sys2Proof.Claims

/-! ## Parameters and actions -/

theorem Update.parameters {i : Instr} {s t : State} (h : Update i s t) :
    t.inputs = s.inputs ∧ t.cfg = s.cfg ∧ t.glyph = s.glyph := by
  cases h with
  | send _ _ _ hsent =>
    exact ⟨hsent.keeps (·.inputs) fun _ _ _ _ _ => rfl, hsent.cfg, hsent.keeps (·.glyph) fun _ _ _ _ _ => rfl⟩
  | _ => exact ⟨rfl, rfl, rfl⟩

theorem exec_parameters {i : Instr} {s t : State} (h : exec i s = .next t) :
    t.inputs = s.inputs ∧ t.cfg = s.cfg ∧ t.glyph = s.glyph :=
  exec_preserves (P := fun u => u.inputs = s.inputs ∧ u.cfg = s.cfg ∧ u.glyph = s.glyph)
    (fun _ _ huv ⟨hi, hc, hg⟩ =>
      have ⟨hi', hc', hg'⟩ := huv.parameters
      ⟨hi'.trans hi, hc'.trans hc, hg'.trans hg⟩)
    (fun _ _ hu => hu) (fun _ _ _ hu => hu) h ⟨rfl, rfl, rfl⟩

theorem Turn.parameters {s t : State} (h : Turn s t) : t.inputs = s.inputs ∧ t.cfg = s.cfg ∧ t.glyph = s.glyph := by
  obtain ⟨n, rfl | ⟨-, rfl⟩⟩ := h
  · exact ⟨rfl, rfl, rfl⟩
  · exact ⟨rfl, rfl, rfl⟩

/-- Settles O48, by what each kind of step does once its action has left the list. -/
theorem stepTakesOneActionAndKeepsTheParameters : Obligations.StepTakesOneActionAndKeepsTheParameters := by
  intro s t h
  rcases step_cases h with ⟨rest, hi, rfl⟩ | ⟨-, a, rest, -, hi, rfl⟩ | ⟨-, hi, rfl⟩ | ⟨-, rest, hi, rfl⟩ |
    ⟨-, w, rest, why, hi, -, rfl⟩ | ⟨-, w, rest, i, hi, -, h⟩ <;> rw [hi]
  · exact ⟨rfl, rfl, rfl⟩
  · exact ⟨rfl, rfl, rfl⟩
  · obtain ⟨hinputs, hkeep⟩ := (idleTurn_turn s).parameters
    exact ⟨hinputs.trans hi, hkeep⟩
  · exact (engineTurn_turn (s.setInputs rest)).parameters
  · exact ⟨rfl, rfl, rfl⟩
  · exact exec_parameters h

/-! ## Registers -/

section
variable {i : Instr} {s t : State}

theorem Update.fb (hi : writesFb i = false) (h : Update i s t) : t.fb = s.fb := by
  cases h with
  | paint _ hw => exact absurd hw (by simp [hi])
  | send _ _ _ hsent => exact hsent.fb
  | _ => rfl

theorem Update.cy (hi : writesCy i = false) (h : Update i s t) : t.cy = s.cy := by
  cases h with
  | cursor _ _ hw => exact absurd hw (by simp [hi])
  | send _ _ _ hsent => exact hsent.keeps (·.cy) fun _ _ _ _ _ => rfl
  | _ => rfl

theorem writesCx_of_writesCy (h : writesCy i = true) : writesCx i = true := by
  cases i with
  | writeChar | writeString => rfl
  | _ => exact h

theorem Update.cx (hi : writesCx i = false) (h : Update i s t) : t.cx = s.cx := by
  cases h with
  | column _ hw => exact absurd hw (by simp [hi])
  | cursor _ _ hw => exact absurd (writesCx_of_writesCy hw) (by simp [hi])
  | send _ _ _ hsent => exact hsent.keeps (·.cx) fun _ _ _ _ _ => rfl
  | _ => rfl

theorem Update.text (hi : writesText i = false) (h : Update i s t) : (t.text, t.tlen) = (s.text, s.tlen) := by
  cases h with
  | clearText hc => simp [hc, writesText] at hi
  | pushText _ hc => simp [hc, writesText] at hi
  | send _ _ _ hsent => exact hsent.keeps (fun u => (u.text, u.tlen)) fun _ _ _ _ _ => rfl
  | _ => rfl

theorem exec_text (hi : writesText i = false) (h : exec i s = .next t) : t.text = s.text ∧ t.tlen = s.tlen :=
  Prod.mk.inj (exec_keeps (fun u => (u.text, u.tlen)) (fun _ _ => Update.text hi) (fun _ _ => rfl) (fun _ _ => rfl) h)

end

/-- Settles O49: of a command's updates only those that name a register write it. -/
theorem commandsWriteOnlyTheirRegisters : Obligations.CommandsWriteOnlyTheirRegisters :=
  fun _ _ _ h => ⟨
    fun hi => exec_keeps (·.fb) (fun _ _ => Update.fb hi) (fun _ _ => rfl) (fun _ _ => rfl) h,
    fun hi => exec_keeps (·.cy) (fun _ _ => Update.cy hi) (fun _ _ => rfl) (fun _ _ => rfl) h,
    fun hi => exec_keeps (·.cx) (fun _ _ => Update.cx hi) (fun _ _ => rfl) (fun _ _ => rfl) h,
    fun hi => exec_text hi h⟩

/-! ## Flags -/

theorem Update.irq {i : Instr} {s t : State} (hi : i ≠ .irqAck) (h : Update i s t) :
    (t.irqf0, t.irqf1) = (s.irqf0, s.irqf1) := by
  cases h with
  | ackIrq hc => exact absurd hc hi
  | send _ _ _ hsent => exact hsent.keeps (fun u => (u.irqf0, u.irqf1)) fun _ _ _ _ _ => rfl
  | _ => rfl

theorem exec_irq {i : Instr} {s t : State} (h : exec i s = .next t) (hi : i ≠ .irqAck) :
    t.irqf0 = s.irqf0 ∧ t.irqf1 = s.irqf1 :=
  Prod.mk.inj (exec_keeps (fun u => (u.irqf0, u.irqf1)) (fun _ _ => Update.irq hi) (fun _ _ => rfl) (fun _ _ => rfl) h)

/-- One of the flags is 0 before and 1 after. -/
def FlagRises (s t : State) : Prop := (s.irqf0 = false ∧ t.irqf0 = true) ∨ (s.irqf1 = false ∧ t.irqf1 = true)

theorem not_flagRises_of_eq {s t : State} (h0 : t.irqf0 = s.irqf0) (h1 : t.irqf1 = s.irqf1) : ¬ FlagRises s t := by
  simp [FlagRises, h0, h1]

theorem not_flagRises_of_clear {s t : State} (h0 : t.irqf0 = false) (h1 : t.irqf1 = false) : ¬ FlagRises s t := by
  simp [FlagRises, h0, h1]

theorem exec_not_flagRises {i : Instr} {s t : State} (h : exec i s = .next t) : ¬ FlagRises s t := by
  by_cases hi : i = .irqAck
  · subst hi
    cases h
    exact not_flagRises_of_clear rfl rfl
  · exact not_flagRises_of_eq (exec_irq h hi).1 (exec_irq h hi).2

/-- The engine completes the transfer that was in flight (R190, R219). -/
def Completes (s t : State) : Prop :=
  s.burstBusy = true ∧ t.burstBusy = false ∧ t.irqf0 = true ∧ t.irqf1 = true ∧ irqLine t = true ∧
    t.trace = s.trace ++ [.burstDone] ∧ t.fb = s.fb ∧ t.resp = s.resp

theorem Turn.completes {s t : State} (h : Turn s t) (hrise : FlagRises s t) : Completes s t := by
  obtain ⟨n, rfl | ⟨hbusy, rfl⟩⟩ := h
  · exact absurd hrise (not_flagRises_of_eq rfl rfl)
  · exact ⟨hbusy, rfl, rfl, rfl, rfl, rfl, rfl, rfl⟩

theorem step_completes {s t : State} (h : step s = .next t) (hrise : FlagRises s t) : Completes s t := by
  rcases step_cases h with ⟨rest, -, rfl⟩ | ⟨-, a, rest, -, -, rfl⟩ | ⟨-, -, rfl⟩ | ⟨-, rest, -, rfl⟩ |
    ⟨-, w, rest, why, -, -, rfl⟩ | ⟨-, w, rest, i, -, -, h⟩
  · exact absurd hrise (not_flagRises_of_clear rfl rfl)
  · exact absurd hrise (not_flagRises_of_eq rfl rfl)
  · exact (idleTurn_turn s).completes hrise
  · exact (engineTurn_turn (s.setInputs rest)).completes hrise
  · exact absurd hrise (not_flagRises_of_eq rfl rfl)
  · exact absurd (show FlagRises (s.setInputs rest) t from hrise) (exec_not_flagRises h)

/-- Settles O50: no command and no other action sets a flag, so a rising flag is a completion. -/
theorem flagsRiseOnlyAtCompletion : Obligations.FlagsRiseOnlyAtCompletion := by
  refine ⟨fun i s t h hi => ?_, fun _ _ => step_completes⟩
  obtain ⟨h0, h1⟩ := exec_irq h hi
  exact ⟨h0, h1, by simp [irqLine, h0, h1]⟩

/-! ## The transport -/

/-- An update only appends to TRACE and does not clear BURST_BUSY. -/
theorem Update.grows {i : Instr} {s t : State} (h : Update i s t) :
    s.trace <+: t.trace ∧ (s.burstBusy = true → t.burstBusy = true) := by
  cases h with
  | pulse v => exact ⟨⟨[.rst v], rfl⟩, id⟩
  | send _ _ _ hsent =>
    have hbusy := hsent.burstBusy
    obtain ⟨l, ht⟩ := hsent
    exact ⟨⟨l, by rw [ht]⟩, fun h => hbusy.trans h⟩
  | startBurst => exact ⟨List.prefix_rfl, fun _ => rfl⟩
  | paint | column | cursor | clearText | pushText | ackIrq => exact ⟨List.prefix_rfl, id⟩

theorem exec_grows {i : Instr} {s t : State} (h : exec i s = .next t) :
    s.trace <+: t.trace ∧ (s.burstBusy = true → t.burstBusy = true) :=
  exec_preserves (P := fun u => s.trace <+: u.trace ∧ (s.burstBusy = true → u.burstBusy = true))
    (fun _ _ huv ⟨htrace, hbusy⟩ => ⟨htrace.trans huv.grows.1, fun h => huv.grows.2 (hbusy h)⟩)
    (fun _ _ hu => hu) (fun _ _ _ hu => hu) h ⟨List.prefix_rfl, id⟩

/-- What a command that reaches the transport may change. -/
def transport (s : State) : List Event × Bool × Bool × List Bool × Nat × Bool :=
  (s.trace, s.dc, s.rst, s.answers, s.draws, s.burstBusy)

theorem Update.transport {i : Instr} {s t : State} (hi : transfers i = false) (h : Update i s t) :
    transport t = transport s := by
  cases h with
  | pulse _ hw | send _ hw | startBurst hw => exact absurd hw (by simp [hi])
  | paint | column | cursor | clearText | pushText | ackIrq => rfl

/-- Settles O51: of a command's updates only the reset pulse, the transfers and a burst's start reach the transport. -/
theorem onlyTransfersReachTheTransport : Obligations.OnlyTransfersReachTheTransport := by
  intro i s t h
  obtain ⟨⟨l, hl⟩, hbusy⟩ := exec_grows h
  refine ⟨⟨l, hl.symm⟩, hbusy, fun hi => ?_⟩
  have hkeep := exec_keeps transport (fun _ _ => Update.transport hi) (fun _ _ => rfl) (fun _ _ => rfl) h
  simpa [transport] using hkeep

/-! ## Reset -/

/-- Settles O9: the step is `applyReset`, whose fields are those of State.reset. -/
theorem resetInputRestoresTheBlock : Obligations.ResetInputRestoresTheBlock :=
  fun _ _ hi => ⟨_, step_reset hi, fun _ => rfl, rfl, rfl, rfl, rfl, rfl, rfl, rfl, rfl, rfl, rfl, rfl, rfl⟩

@[simp] theorem table_reset (f : Font) : State.reset.glyph.table f = GlyphStore.openTable f := by
  cases f <;> simp only [State.reset, GlyphStore.default, GlyphStore.table]

@[simp] theorem length_openTable (f : Font) : (GlyphStore.openTable f).length = 95 * f.height := by
  simp [GlyphStore.openTable]

theorem openTable_f5x7_zero : (GlyphStore.openTable .f5x7)[0]? = some 0x0000#16 := by
  simp [GlyphStore.openTable, GlyphStore.openRow, Font.height]

@[simp] theorem tableOk_reset (f : Font) : State.reset.glyph.tableOk f = true := by
  simp [GlyphStore.tableOk]

/-- Settles O10: the fields of State.reset, and the lengths and the one known row of its glyph tables. -/
theorem resetStateHoldsTheSpecValues : Obligations.ResetStateHoldsTheSpecValues := by
  refine ⟨fun _ => rfl, rfl, rfl, rfl, rfl, rfl, rfl, rfl, rfl, rfl, rfl, rfl, rfl, rfl, rfl, rfl, rfl, rfl, rfl, rfl, rfl,
    rfl, rfl, rfl, fun f => ?_, ?_⟩
  · rw [table_reset, length_openTable]
  · rw [table_reset, openTable_f5x7_zero]

/-- Settles O60: with no transfer in flight, no fault, empty memories and cursor 0 each invariant is immediate. -/
theorem invariantsHoldAtReset : Obligations.InvariantsHoldAtReset :=
  ⟨⟨⟨rfl, rfl⟩, Nat.zero_le _, rfl⟩, ⟨Nat.zero_le _, Nat.zero_le _⟩, burstInv_of_not_busy rfl,
    fun hfault => absurd rfl hfault, fun _ => ⟨rfl, rfl, rfl, rfl⟩, by simp [GlyphStore.wellFormed]⟩

end Sys2Proof.Machine
end

section
/-! # What commands do not read

A `Disguise` replaces TEXT, RESP and the poll budget. No operation inside a command reads them, but that TEXT_PUSH extends
TEXT and a string command prints it; so a command of a disguised block does the same, disguised. -/

namespace Sys2Proof.Machine

open Sys2Proof.Claims

/-- A replacement of the three pieces of state that no operation inside a command reads (R22, R24, R174). -/
structure Disguise where
  text : Memory → Memory
  resp : Resp → Resp
  budget : Nat → Nat

def State.disguise (s : State) (d : Disguise) : State :=
  { s with text := d.text s.text, resp := d.resp s.resp, cfg := { s.cfg with pollBudget := d.budget s.cfg.pollBudget } }

def Run.disguise {α : Type} (r : Run α) (d : Disguise) : Run α :=
  match r with
  | .ret a s => .ret a (s.disguise d)
  | .raised s => .raised (s.disguise d)

/-- An operation that does not read what the disguise replaces. -/
def Blind {α : Type} (d : Disguise) (op : State → Run α) : Prop :=
  ∀ s, op (s.disguise d) = (op s).disguise d

variable {d : Disguise}

theorem Blind.ret {α : Type} (a : α) : Blind d (.ret a) := fun _ => rfl

theorem Run.andThen_disguise {α β : Type} {r : Run α} {k : α → State → Run β}
    (hk : ∀ a t, r = .ret a t → k a (t.disguise d) = (k a t).disguise d) :
    (r.disguise d).andThen k = (r.andThen k).disguise d := by
  cases r with
  | ret a t => exact hk a t rfl
  | raised t => rfl

theorem Blind.andThen {α β : Type} {op : State → Run α} {k : α → State → Run β} (hop : Blind d op)
    (hk : ∀ a, Blind d (k a)) : Blind d fun s => (op s).andThen k := by
  intro s
  show (op (s.disguise d)).andThen k = _
  rw [hop s, Run.andThen_disguise fun a t _ => hk a t]

theorem Blind.ite {α : Type} {p : State → Prop} [∀ s, Decidable (p s)] {op op' : State → Run α}
    (hp : ∀ s : State, p (s.disguise d) ↔ p s) (h : Blind d op) (h' : Blind d op') :
    Blind d fun s => if p s then op s else op' s := by
  intro s
  by_cases hs : p s
  · simp only [hs, (hp s).mpr hs, if_true]
    exact h s
  · simp only [hs, mt (hp s).mp hs, if_false]
    exact h' s

/-- An operation on a value read from the state: neither the reading nor the operation sees what is replaced. -/
theorem Blind.reading {α β : Type} (read : State → β) {op : β → State → Run α} (hop : ∀ b, Blind d (op b))
    (hread : ∀ s : State, read (s.disguise d) = read s) : Blind d fun s => op (read s) s := by
  intro s
  show op (read (s.disguise d)) (s.disguise d) = _
  rw [hread s, hop]

/-! ## Framebuffer writes -/

theorem blind_fbWrite (i : Nat) (v : Byte) : Blind d (fbWrite i v) := by
  intro s
  cases hb : s.burstBusy with
  | false =>
    rw [fbWrite_idle hb, fbWrite_idle (s := s.disguise d) hb]
    rfl
  | true =>
    rw [fbWrite_busy hb, fbWrite_busy (s := s.disguise d) hb]
    rfl

theorem blind_putPixel (x y : Nat) (c : Color) : Blind d (putPixel x y c) := by
  intro s
  by_cases hin : x < 128 ∧ y < 64
  · cases hb : s.burstBusy with
    | false =>
      rw [putPixel_inside hin.1 hin.2 c hb, putPixel_inside (s := s.disguise d) hin.1 hin.2 c hb]
      rfl
    | true =>
      rw [putPixel_inside_busy hin.1 hin.2 c hb, putPixel_inside_busy (s := s.disguise d) hin.1 hin.2 c hb]
      rfl
  · rw [putPixel_outside hin, putPixel_outside hin]
    rfl

theorem blind_putPixels (cells : List (Nat × Nat × Color)) : Blind d (putPixels cells) := by
  induction cells with
  | nil => exact .ret true
  | cons cell rest ih => exact (blind_putPixel cell.1 cell.2.1 cell.2.2).andThen fun ok => .ite (fun _ => .rfl) ih (.ret false)

theorem blind_fbWriteAll (addrs : List Nat) (v : Byte) : Blind d (fbWriteAll addrs v) := by
  induction addrs with
  | nil => exact .ret ()
  | cons i rest ih => exact (blind_fbWrite i v).andThen fun _ => ih

theorem blind_fbFill (v : Byte) : Blind d (fbFill v) := blind_fbWriteAll _ v

/-! ## Transfers -/

theorem transferred_disguise (s : State) (m : LineMode) (e : Bool → Event) :
    transferred (s.disguise d) m e = (transferred s m e).disguise d := by
  cases ha : s.answers <;> simp [transferred, drawAnswer, State.disguise, ha, dcLevel]

theorem drawAnswer_disguise (s : State) : (drawAnswer (s.disguise d)).1 = (drawAnswer s).1 := by
  cases ha : s.answers <;> simp [drawAnswer, State.disguise, ha]

theorem blind_sendCmd (b : Byte) : Blind d (sendCmd b) := by
  intro s
  cases hb : s.burstBusy with
  | false =>
    rw [sendCmd_idle b hb, sendCmd_idle (s := s.disguise d) b hb, transferred_disguise, drawAnswer_disguise]
    rfl
  | true =>
    rw [sendCmd_busy b hb, sendCmd_busy (s := s.disguise d) b hb]
    rfl

theorem blind_sendData (off len : Nat) : Blind d (sendData off len) := by
  intro s
  cases hb : s.burstBusy with
  | false =>
    rw [sendData_idle off len hb, sendData_idle (s := s.disguise d) off len hb, transferred_disguise, drawAnswer_disguise]
    rfl
  | true =>
    rw [sendData_busy off len hb, sendData_busy (s := s.disguise d) off len hb]
    rfl

theorem blind_sendScript (script : List Byte) : Blind d (sendScript script) := by
  induction script with
  | nil => exact .ret true
  | cons b rest ih => exact (blind_sendCmd b).andThen fun ok => .ite (fun _ => .rfl) ih (.ret false)

theorem blind_sendPage (p : Nat) : Blind d (sendPage p) :=
  (Blind.reading (fun s => pageSelect s.cfg p) blind_sendCmd fun _ => rfl).andThen fun _ => .ite (fun _ => .rfl) (.ret _) <|
  (Blind.reading (fun s => s.cfg.cmdColLow) blind_sendCmd fun _ => rfl).andThen fun _ => .ite (fun _ => .rfl) (.ret _) <|
  (Blind.reading (fun s => s.cfg.cmdColHigh) blind_sendCmd fun _ => rfl).andThen fun _ => .ite (fun _ => .rfl) (.ret _) <|
  (blind_sendData _ _).andThen fun _ => .ite (fun _ => .rfl) (.ret _) (.ret _)

theorem blind_sendPages (pages : List Nat) : Blind d (sendPages pages) := by
  induction pages with
  | nil => exact .ret okResp
  | cons p rest ih => exact (blind_sendPage p).andThen fun st => .ite (fun _ => .rfl) ih (.ret _)

theorem blind_flushBurst : Blind d flushBurst :=
  (blind_sendData 0 fbBytes).andThen fun _ => .ite (fun _ => .rfl) (fun _ => rfl) (.ret _)

theorem blind_flush : Blind d flush := .ite (fun _ => .rfl) blind_flushBurst (blind_sendPages _)

theorem resetPulse_disguise (s : State) : resetPulse (s.disguise d) = (resetPulse s).disguise d := by
  cases hp : s.cfg.initResetPulse <;> simp [resetPulse, State.disguise, State.driveRst, State.emit, hp]

/-! ## Cursor and text -/

theorem blind_moveCursor (x y : Byte) : Blind d (moveCursor x y) :=
  .ite (fun _ => .rfl) (fun _ => rfl) (.ret _)

theorem blind_paintPadding (f : Font) (c : Color) (p : Bool) : Blind d (paintPadding f c p) := by
  refine .ite (fun _ => .rfl) ?_ (.ret true)
  exact (Blind.reading (fun s => paddingCells f c s.cx.toNat s.cy.toNat) blind_putPixels fun _ => rfl).andThen fun _ =>
    .ite (fun _ => .rfl) (fun _ => rfl) (.ret false)

theorem blind_paintRows (ch : Byte) (f : Font) (c : Color) (rows : List Nat) : Blind d (paintRows ch f c rows) := by
  induction rows with
  | nil => exact .ret true
  | cons r rest ih =>
    intro s
    have hglyph : (s.disguise d).glyph = s.glyph := rfl
    simp only [paintRows, hglyph]
    cases glyphRow s.glyph f (glyphIndex f ch r) with
    | none => rfl
    | some row =>
      have hcells := Blind.reading (d := d) (fun s => rowCells f c s.cx.toNat s.cy.toNat r row) blind_putPixels fun _ => rfl
      exact (hcells.andThen fun ok => .ite (fun _ => .rfl) ih (.ret false)) s

theorem blind_rasterChar (ch : Byte) (f : Font) (c : Color) (p : Bool) : Blind d (rasterChar ch f c p) := by
  refine .ite (fun _ => .rfl) ?_ (fun _ => rfl)
  exact (blind_paintPadding f c p).andThen fun _ => .ite (fun _ => .rfl) (.ret _) <|
    (blind_paintRows ch f c _).andThen fun _ => .ite (fun _ => .rfl) (.ret _) fun _ => rfl

theorem blind_rasterText (f : Font) (c : Color) (p : Bool) (text : List Byte) : Blind d (rasterText f c p text) := by
  induction text with
  | nil => exact .ret okResp
  | cons ch rest ih => exact (blind_rasterChar ch f c p).andThen fun r => .ite (fun _ => .rfl) ih (.ret _)

/-! ## Commands -/

theorem blind_course_init : Blind d (course .init) := by
  have hscript : Blind d fun s => sendScript (initScript s.cfg) (resetPulse s) := by
    intro s
    show sendScript (initScript s.cfg) (resetPulse (s.disguise d)) = _
    rw [resetPulse_disguise, blind_sendScript]
  refine .ite (fun _ => .rfl) (fun _ => rfl) ?_
  exact hscript.andThen fun _ => .ite (fun _ => .rfl) (.ret _) <|
    (blind_fbFill _).andThen fun _ => blind_flush.andThen fun _ => .ite (fun _ => .rfl) (.ret _) fun _ => rfl

section
variable {s : State} (htext : textChars (s.disguise d) = textChars s)
include htext

/-- An operation that does not write TEXT leaves the disguise of the text as it was. -/
theorem Run.Follows.textChars_disguise {α : Type} {i : Instr} {r : Run α} (hr : r.Follows i s) (hi : writesText i = false)
    {a : α} {t : State} (h : r = .ret a t) : textChars (t.disguise d) = textChars t := by
  cases hr with
  | ends a' hu =>
    cases h
    have hkeep := hu.keeps (fun u => (u.text, u.tlen)) fun _ _ => Update.text hi
    obtain ⟨ht, hl⟩ := Prod.mk.inj hkeep
    simpa [textChars, State.disguise, ht, hl] using htext
  | faults => cases h

/-- WRITE reads the text after its fill and its cursor move, which leave it as it was. -/
theorem course_write_disguise (f : Font) (x y : Byte) (b c : Color) (p u : Bool) :
    course (.write f x y b c p u) (s.disguise d) = (course (.write f x y b c p u) s).disguise d := by
  rw [course, course, blind_fbFill]
  refine Run.andThen_disguise fun _ s1 h1 => ?_
  have htext1 := (fbFill_follows (i := .fill b) rfl _ s).textChars_disguise htext rfl h1
  rw [blind_moveCursor]
  refine Run.andThen_disguise fun r s2 h2 => ?_
  have htext2 := (moveCursor_follows (i := .setCursor x y) rfl x y s1).textChars_disguise htext1 rfl h2
  rw [htext2]
  have hprint := (blind_rasterText (d := d) f c p (textChars s2)).andThen fun r =>
    .ite (p := fun _ => r.status ≠ .ok) (fun _ => .rfl) (.ret (failResp r.status))
      (.ite (p := fun _ => u = true) (fun _ => .rfl) blind_flush (.ret okResp))
  exact Blind.ite (p := fun _ => r.status ≠ .ok) (fun _ => .rfl) (.ret (failResp r.status)) hprint s2

theorem course_disguise {i : Instr} (hpush : writesText i = false ∨ d.text = id) :
    course i (s.disguise d) = (course i s).disguise d := by
  cases i with
  | drawPixel x y c => exact ((blind_putPixel _ _ c).andThen fun _ => .ret _) s
  | fill c =>
    rw [course, course]
    exact ((blind_fbFill _).andThen fun _ => .ret okResp) s
  | setCursor x y => exact blind_moveCursor x y s
  | writeChar ch f c p => exact blind_rasterChar ch f c p s
  | textPush ch =>
    obtain hpush | hid := hpush
    · cases hpush
    · have hpushed : Blind d fun s => .ret okResp (s.setText (s.text.write s.tlen.toNat ch) (s.tlen + 1#9)) := by
        intro s
        simp [State.disguise, Run.disguise, State.setText, hid]
      exact Blind.ite (p := fun s => s.tlen.toNat = s.cfg.textMax) (fun _ => .rfl) (.ret _) hpushed s
  | writeString f c p =>
    rw [course, htext]
    exact blind_rasterText f c p _ s
  | write f x y b c p u => exact course_write_disguise htext f x y b c p u
  | flush => exact blind_flush s
  | init => exact blind_course_init s
  | textClear | irqAck | fbRead | glyphRead | cursorRead | statusRead => rfl

/-- Where TEXT is not read and RESP not replaced, a command of the disguised block ends in the disguised state. -/
theorem exec_disguise {i : Instr} {t : State} (hpush : writesText i = false ∨ d.text = id) (hresp : d.resp = id)
    (h : exec i s = .next t) : exec i (s.disguise d) = .next (t.disguise d) := by
  rw [exec_eq_completed] at h ⊢
  rw [course_disguise htext hpush]
  cases hc : course i s with
  | ret a u =>
    rw [hc] at h
    cases h
    simp [Run.disguise, State.disguise, State.setResp, hresp]
  | raised u =>
    rw [hc] at h
    cases h
    rfl

end

/-- O52's disguise: another response before the command. -/
def otherResp (r : Resp) : Disguise := ⟨id, fun _ => r, id⟩

theorem disguise_otherResp (s : State) (r : Resp) : s.disguise (otherResp r) = s.setResp r := rfl

/-- Settles O52: the course of a command is blind to RESP, keeps it, and raises a fault only at its end. -/
theorem respIsWrittenUnlessFaulted : Obligations.RespIsWrittenUnlessFaulted := by
  intro i s t h hf
  have hfollows := course_follows i s
  have hblind (r : Resp) : exec i (s.setResp r) = completed ((course i s).disguise (otherResp r)) := by
    rw [exec_eq_completed, ← disguise_otherResp, course_disguise rfl (.inr rfl)]
  rw [exec_eq_completed] at h
  generalize course i s = r at h hfollows hblind
  cases hfollows with
  | ends r hu =>
    cases h
    have hfault := hu.keeps (·.fault) fun _ _ huv => huv.fault_resp.1
    exact ⟨fun _ => hblind, fun hne => absurd (hfault.trans hf) hne⟩
  | faults f hu =>
    cases h
    have hresp := hu.keeps (·.resp) fun _ _ huv => huv.fault_resp.2
    exact ⟨fun hnone => (by cases hnone), fun _ => ⟨hresp, hblind⟩⟩

/-- O54's disguise: another text. -/
def otherText (m : Memory) : Disguise := ⟨fun _ => m, id, id⟩

theorem textChars_otherText {s : State} {m : Memory} (hm : ∀ k, k < s.tlen.toNat → m.read k = s.text.read k) :
    textChars (s.disguise (otherText m)) = textChars s :=
  Memory.slice_congr fun k hk => by simpa [otherText, State.disguise] using hm k hk

/-- What a push leaves of TEXT below the new TLEN depends on the old text below the old TLEN alone. -/
theorem read_pushed {m n : Memory} {size : Nat} (hm : m.wf size = true) (hn : n.wf size = true) {len : BitVec 9} (ch : Byte)
    (hsame : ∀ k, k < len.toNat → m.read k = n.read k) {k : Nat} (hk : k < (len + 1#9).toNat) :
    (m.write len.toNat ch).read k = (n.write len.toNat ch).read k := by
  rw [Memory.read_write hm, Memory.read_write hn]
  split
  case isTrue => rfl
  case isFalse hne =>
    have hle : (len + 1#9).toNat ≤ len.toNat + 1 := BitVec.toNat_add len 1#9 ▸ Nat.mod_le _ _
    exact hsame k (by omega)

/-- Settles O54: only the string commands read TEXT, and only below TLEN; TEXT_PUSH writes the byte TLEN grows over. -/
theorem textBeyondTlenIsUnobservable : Obligations.TextBeyondTlenIsUnobservable := by
  intro i s t m hs hm hsame h
  cases hi : writesText i with
  | false =>
    obtain ⟨htext, htlen⟩ := exec_text hi h
    exact ⟨m, exec_disguise (textChars_otherText hsame) (.inl hi) rfl h, by rwa [htext, htlen]⟩
  | true =>
    cases i with
    | textClear =>
      cases h
      exact ⟨m, rfl, fun k hk => absurd hk (Nat.not_lt_zero k)⟩
    | textPush ch =>
      by_cases hlen : s.tlen.toNat = s.cfg.textMax
      · simp only [exec_eq_completed, course, hlen, if_true] at h ⊢
        cases h
        exact ⟨m, rfl, hsame⟩
      · simp only [exec_eq_completed, course, hlen, if_false] at h ⊢
        cases h
        exact ⟨m.write s.tlen.toNat ch, rfl, fun k hk => read_pushed hm hs ch hsame hk⟩
    | _ => cases hi

end Sys2Proof.Machine
end

section
/-! # The bit order of glyph rows (R53, R144) -/

namespace Sys2Proof.Machine

/-- Masking a row with `0x8000` tests its most significant bit. -/
theorem and_0x8000_ne_zero (row : Half) : (row &&& 0x8000#16 != 0#16) = row.getLsbD 15 := by
  have hmask : row &&& 0x8000#16 = if row.getLsbD 15 then 0x8000#16 else 0#16 := BitVec.and_twoPow row 15
  rw [hmask]
  cases row.getLsbD 15 <;> rfl

/-- Settles O23: the mask tests bit 15, and the shift by `j` has brought bit `15 - j` there. -/
theorem glyphBitTestIsTheRowBit : Obligations.GlyphBitTestIsTheRowBit := by
  intro row j hj
  have hnot : ¬ 15 < j := by omega
  calc glyphBit row j
      = (row <<< j).getLsbD 15 := and_0x8000_ne_zero (row <<< j)
    _ = row.getLsbD (15 - j) := by rw [BitVec.getLsbD_shiftLeft]; simp [hnot]

end Sys2Proof.Machine
end

section
/-! # Encoding and decoding (R72 to R79)

`decodeOperands_encode` and `encode_of_decodeOperands` are the two directions: the fields of an encoded word give the
operands back, and the operands of a decoded word fill exactly the bits its mask leaves open. Legal words follow by reading
the opcode map by its opcodes. -/

namespace Sys2Proof

/-! ## Fields of a word -/

theorem extractLsb'_atBit_same {n lo : Nat} (v : BitVec n) (h : lo + n ≤ 32) : (atBit lo v).extractLsb' lo n = v := by
  apply BitVec.eq_of_getLsbD_eq
  intro k hk
  have hword : lo + k < 32 := by omega
  simp [atBit, hk, hword]

theorem extractLsb'_atBit_other {n lo start len : Nat} (v : BitVec n) (h : start + len ≤ lo ∨ lo + n ≤ start) :
    (atBit lo v).extractLsb' start len = 0#len := by
  apply BitVec.eq_of_getLsbD_eq
  intro k hk
  rcases h with h | h
  · have hbelow : start + k < lo := by omega
    simp [atBit, hbelow]
  · have hv : v.getLsbD (start + k - lo) = false := BitVec.getLsbD_of_ge v _ (by omega)
    simp [atBit, hv]

theorem getElem_atBit {n lo : Nat} (v : BitVec n) (k : Nat) (hk : k < 32) :
    (atBit lo v)[k] = (decide (lo ≤ k) && v.getLsbD (k - lo)) := by
  by_cases h : k < lo
  · simp [atBit, h, Nat.not_le.mpr h]
  · have hword : k - lo < 32 := by omega
    simp [atBit, h, Nat.not_lt.mp h]

/-- A field put back in its place is the word under the field's mask. -/
theorem atBit_extractLsb' (w : Word) (lo n : Nat) : atBit lo (w.extractLsb' lo n) = w &&& atBit lo (BitVec.allOnes n) := by
  apply BitVec.eq_of_getLsbD_eq
  intro k hk
  by_cases hlo : k < lo
  · simp [atBit, hlo]
  · have hsum : lo + (k - lo) = k := by omega
    simp [atBit, hlo, hk, hsum, Bool.and_comm]

theorem atBit_getLsbD (w : Word) (k : Nat) : atBit k (BitVec.ofBool (w.getLsbD k)) = w &&& atBit k 1#1 := by
  have hbit : BitVec.ofBool (w.getLsbD k) = w.extractLsb' k 1 := by
    apply BitVec.eq_of_getLsbD_eq
    intro j hj
    obtain rfl : j = 0 := by omega
    simp
  rw [hbit, atBit_extractLsb']
  rfl

theorem Color.bit_ofBool (b : Bool) : (Color.ofBool b).bit = BitVec.ofBool b := by cases b <;> rfl

theorem Color.ofBool_getElem_bit (c : Color) : Color.ofBool (c.bit[0]) = c := by cases c <;> rfl

@[simp] theorem atBit_xField (w : Word) : atBit 16 (xField w) = w &&& 0x00FF0000#32 := atBit_extractLsb' w 16 8
@[simp] theorem atBit_yField (w : Word) : atBit 24 (yField w) = w &&& 0xFF000000#32 := atBit_extractLsb' w 24 8
@[simp] theorem atBit_chField (w : Word) : atBit 16 (chField w) = w &&& 0x00FF0000#32 := atBit_extractLsb' w 16 8
@[simp] theorem atBit_idxField (w : Word) : atBit 16 (idxField w) = w &&& 0xFFFF0000#32 := atBit_extractLsb' w 16 16
@[simp] theorem atBit_fField (w : Word) : atBit 8 (fField w) = w &&& 0x00000700#32 := atBit_extractLsb' w 8 3
@[simp] theorem atBit_uField (w : Word) : atBit 7 (BitVec.ofBool (uField w)) = w &&& 0x00000080#32 := atBit_getLsbD w 7
@[simp] theorem atBit_pField (w : Word) : atBit 6 (BitVec.ofBool (pField w)) = w &&& 0x00000040#32 := atBit_getLsbD w 6
@[simp] theorem atBit_bField (w : Word) : atBit 5 (bField w).bit = w &&& 0x00000020#32 := by
  rw [bField, Color.bit_ofBool, atBit_getLsbD]; rfl
@[simp] theorem atBit_cField (w : Word) : atBit 4 (cField w).bit = w &&& 0x00000010#32 := by
  rw [cField, Color.bit_ofBool, atBit_getLsbD]; rfl

/-! ## Fonts -/

theorem Font.ofNumber_eq_some_iff {n : BitVec 3} {f : Font} : Font.ofNumber n = some f ↔ n = f.number := by
  cases f <;> decide +revert

theorem withFont_eq_instr_iff {w : Word} {k : Font → Instr} {i : Instr} :
    withFont w k = .instr i ↔ ∃ f, fField w = f.number ∧ k f = i := by
  simp only [← Font.ofNumber_eq_some_iff, withFont]
  cases Font.ofNumber (fField w) <;> simp

/-- Bits [10:8] name a font exactly when they are at most 4 (R76). -/
theorem exists_font_iff {w : Word} : (∃ f : Font, fField w = f.number) ↔ fontFieldLegal w = true := by
  have hnumber : ∀ n : BitVec 3, (Font.ofNumber n).isSome = true ↔ n.toNat < 5 := by decide
  simp only [← Font.ofNumber_eq_some_iff, ← Option.isSome_iff_exists, hnumber, fontFieldLegal, fField, decide_eq_true_eq]

/-! ## The opcode -/

open Laws.OpcodeField in
/-- The laws of the single commands, gathered. -/
theorem opcodeField_statement : ∀ i : Instr, Statement i
  | .drawPixel x y c => drawPixel x y c
  | .fill c => fill c
  | .setCursor x y => setCursor x y
  | .writeChar ch f c p => writeChar ch f c p
  | .textClear => textClear
  | .textPush ch => textPush ch
  | .writeString f c p => writeString f c p
  | .write f x y b c p u => write f x y b c p u
  | .flush => flush
  | .init => init
  | .fbRead idx => fbRead idx
  | .glyphRead f idx => glyphRead f idx
  | .cursorRead => cursorRead
  | .statusRead => statusRead
  | .irqAck => irqAck

theorem opField_encode (i : Instr) : opField (encode i) = i.opcode := (opcodeField_statement i).1

theorem opField_matchOf (op : BitVec 4) : opField (matchOf op) = op := by decide +revert

theorem opField_and (a b : Word) : opField (a &&& b) = opField a &&& opField b := BitVec.extractLsb'_and

theorem opField_maskOf (op : BitVec 4) : opField (maskOf op) = BitVec.allOnes 4 := by decide +revert

theorem matchOf_and_maskOf (op : BitVec 4) : matchOf op &&& maskOf op = matchOf op := by decide +revert

theorem matchOf_eq_ofNat (op : BitVec 4) : matchOf op = BitVec.ofNat 32 op.toNat := by decide +revert

/-! ## The two directions -/

/-- `decode` answers a command when the fixed bits of the word are right and its operands can be read (R77, R78). -/
theorem decode_eq_instr_iff {w : Word} {i : Instr} :
    decode w = .instr i ↔ w &&& maskOf (opField w) = matchOf (opField w) ∧ decodeOperands w = .instr i := by
  unfold decode
  split_ifs with h0 hfixed
  · simp [decodeOperands, h0]
  · simp [hfixed]
  · simp [hfixed]

/-- Every field of an encoded word reads the operand put there: the other fields do not overlap it (R72). -/
theorem decodeOperands_encode (i : Instr) : decodeOperands (encode i) = .instr i := by
  rw [decodeOperands, opField_encode]
  cases i <;>
    simp [Instr.opcode, withFont_eq_instr_iff, encode, xField, yField, chField, idxField, fField, cField, bField, pField,
      uField, BitVec.extractLsb'_or, extractLsb'_atBit_same, extractLsb'_atBit_other, getElem_atBit,
      Color.ofBool_getElem_bit]

/-- The operands read from a word are encoded in exactly the bits that its opcode's mask leaves open (R77). -/
theorem encode_of_decodeOperands {w : Word} {i : Instr} (h : decodeOperands w = .instr i) :
    encode i = (w &&& ~~~maskOf (opField w)) ||| matchOf (opField w) := by
  unfold decodeOperands at h
  split at h
  case h_16 => cases h
  case h_4 hop | h_7 hop | h_8 hop | h_12 hop =>
    obtain ⟨f, hf, rfl⟩ := withFont_eq_instr_iff.mp h
    simp [encode, maskOf, matchOf_eq_ofNat, hop, ← hf, ← BitVec.and_or_distrib_left]
  all_goals
    rename_i hop
    cases h
    simp [encode, maskOf, matchOf_eq_ofNat, hop, ← BitVec.and_or_distrib_left]

/-- The operands of a command touch no fixed bit of its row. -/
theorem encode_and_maskOf (i : Instr) : encode i &&& maskOf i.opcode = matchOf i.opcode := by
  have hfill := encode_of_decodeOperands (decodeOperands_encode i)
  rw [opField_encode] at hfill
  calc encode i &&& maskOf i.opcode
      = (encode i &&& ~~~maskOf i.opcode ||| matchOf i.opcode) &&& maskOf i.opcode := by rw [← hfill]
    _ = encode i &&& (~~~maskOf i.opcode &&& maskOf i.opcode) ||| matchOf i.opcode &&& maskOf i.opcode := by
      rw [BitVec.and_or_distrib_right, BitVec.and_assoc]
    _ = matchOf i.opcode := by simp [matchOf_and_maskOf]

/-- Settles O1: the fixed bits of an encoded word are right, and its fields give the operands back. -/
theorem decodeOfEncodeIsTheCommand : Obligations.DecodeOfEncodeIsTheCommand := by
  intro i
  refine decode_eq_instr_iff.mpr ⟨?_, decodeOperands_encode i⟩
  rw [opField_encode, encode_and_maskOf]

/-- Settles O2: the open bits of the word come back as operands, the others are fixed. -/
theorem encodeOfDecodedIsTheWord : Obligations.EncodeOfDecodedIsTheWord := by
  intro w i h
  obtain ⟨hfixed, hoperands⟩ := decode_eq_instr_iff.mp h
  calc encode i
      = w &&& ~~~maskOf (opField w) ||| matchOf (opField w) := encode_of_decodeOperands hoperands
    _ = w &&& (~~~maskOf (opField w) ||| maskOf (opField w)) := by rw [← hfixed, BitVec.and_or_distrib_left]
    _ = w := by rw [BitVec.or_comm, BitVec.or_not_self, BitVec.and_allOnes]

/-- The two directions together. -/
theorem decode_eq_instr_iff_encode_eq {w : Word} {i : Instr} : decode w = .instr i ↔ encode i = w :=
  ⟨encodeOfDecodedIsTheWord w i, fun h => h ▸ decodeOfEncodeIsTheCommand i⟩

/-- Settles O4: by O1 and O2 each word is read as its command exactly when it is the command's encoding. -/
theorem workedEncodingsDecode : Obligations.WorkedEncodingsDecode := by
  unfold Obligations.WorkedEncodingsDecode
  simp only [decode_eq_instr_iff_encode_eq]
  decide

/-! ## Legal words -/

/-- A row of the opcode map is `maskOf` and `matchOf` at its opcode. -/
theorem opcodeMap_row {r : OpcodeRow} (hr : r ∈ opcodeMap) :
    r.mask = maskOf (opField r.pattern) ∧ r.pattern = matchOf (opField r.pattern) := by decide +revert

/-- A word selects the row of its own opcode, when its fixed bits are right, and no other. -/
theorem selects_iff {r : OpcodeRow} (hr : r ∈ opcodeMap) (w : Word) :
    r.selects w = true ↔ opField r.pattern = opField w ∧ w &&& maskOf (opField w) = matchOf (opField w) := by
  obtain ⟨hmask, hpattern⟩ := opcodeMap_row hr
  rw [OpcodeRow.selects, beq_iff_eq]
  constructor
  · intro h
    have hop : opField r.pattern = opField w := by
      rw [← h, hmask, opField_and, opField_maskOf, BitVec.and_allOnes]
    exact ⟨hop, by rw [← hop, ← hmask, ← hpattern, h]⟩
  · rintro ⟨hop, h⟩
    rw [hmask, hpattern, opField_matchOf, hop, h]

/-- The rows of the opcode map by their opcode: all but 0, and four of them use the font. -/
theorem exists_row_iff (op : BitVec 4) (fontOk : Bool) :
    (∃ r ∈ opcodeMap, opField r.pattern = op ∧ (!r.usesFont || fontOk) = true) ↔
      op.toNat ≠ 0 ∧ (op.toNat ∈ [0x4, 0x7, 0x8, 0xC] → fontOk = true) := by decide +revert

theorem decodeOperands_isInstr_iff (w : Word) : (∃ i, decodeOperands w = .instr i) ↔
    ∃ r ∈ opcodeMap, opField r.pattern = opField w ∧ (!r.usesFont || fontFieldLegal w) = true := by
  rw [exists_row_iff, decodeOperands]
  split
  case h_16 =>
    have hzero : (opField w).toNat = 0 := by
      have hlt : (opField w).toNat < 16 := (opField w).isLt
      grind
    simp [hzero]
  case h_4 hop | h_7 hop | h_8 hop | h_12 hop => simp [withFont_eq_instr_iff, exists_font_iff, hop]
  all_goals
    rename_i hop
    simp [hop]

theorem rows_eq_of_opcode_eq {r q : OpcodeRow} (hr : r ∈ opcodeMap) (hq : q ∈ opcodeMap)
    (h : opField r.pattern = opField q.pattern) : r = q :=
  List.inj_on_of_nodup_map (f := fun r => opField r.pattern) (by decide) hr hq h

theorem decode_isInstr_iff (w : Word) : (∃ i, decode w = .instr i) ↔ legalWord w = true := by
  simp only [decode_eq_instr_iff, exists_and_left, decodeOperands_isInstr_iff, legalWord, List.any_eq_true,
    Bool.and_eq_true]
  constructor
  · rintro ⟨hfixed, r, hr, hop, hfont⟩
    exact ⟨r, hr, (selects_iff hr w).mpr ⟨hop, hfixed⟩, hfont⟩
  · rintro ⟨r, hr, hsel, hfont⟩
    obtain ⟨hop, hfixed⟩ := (selects_iff hr w).mp hsel
    exact ⟨hfixed, r, hr, hop, hfont⟩

/-- Settles O3: a word selects the row of its opcode alone, and rows with the same opcode are the same. -/
theorem decodedWordsAreTheLegalWords : Obligations.DecodedWordsAreTheLegalWords := by
  refine fun w => ⟨decode_isInstr_iff w, fun r hr q hq hrw hqw => rows_eq_of_opcode_eq hr hq ?_⟩
  rw [((selects_iff hr w).mp hrw).1, ((selects_iff hq w).mp hqw).1]

end Sys2Proof
end

section
/-! # Command words on the port (R71, R78, R216) -/

namespace Sys2Proof.Machine

/-- A faulted block ignores every action but a reset. -/
theorem step_faulted {s : State} {r : FaultReason} {a : Input} {rest : List Input} (hf : s.fault = some r)
    (ha : a ≠ .reset) (hi : s.inputs = a :: rest) : step s = .next (s.setInputs rest) := by
  cases a with
  | reset => exact absurd rfl ha
  | command w => simp [step, takeAction, actFaulted, hf, hi]
  | engine => simp [step, takeAction, actFaulted, hf, hi]

theorem step_faulted_idle {s : State} {r : FaultReason} (hf : s.fault = some r) (hi : s.inputs = []) :
    step s = .fault (.blockFaulted r) := by
  simp [step, takeAction, hf, hi]

theorem runWord_instr {w : Word} {i : Instr} (h : decode w = .instr i) (s : State) : runWord w s = exec i s := by
  simp [runWord, h]

theorem runWord_illegal {w : Word} (h : legalWord w = false) (s : State) : runWord w s = .next (rejectWord s) := by
  unfold runWord
  split
  case h_1 i hdecode => exact absurd ((decode_isInstr_iff w).mp ⟨i, hdecode⟩) (by simp [h])
  case h_2 => rfl

/-- Settles O5: the step takes the word off the list and runs it. -/
theorem stepRunsTheDecodedCommand : Obligations.StepRunsTheDecodedCommand := by
  intro s w rest i hi hf hdecode
  rw [step_command hi hf, runWord_instr hdecode]

/-- Settles O6: an illegal word decodes to no command, so it is rejected. -/
theorem illegalWordWritesOnlyResp : Obligations.IllegalWordWritesOnlyResp := by
  intro s w rest hi hf hillegal
  rw [step_command hi hf, runWord_illegal hillegal]
  rfl

/-- Settles O7: a faulted block ignores its actions and stops when none is left. -/
theorem faultedBlockTakesNoStep : Obligations.FaultedBlockTakesNoStep :=
  fun _ _ hf => ⟨fun _ _ ha hi => step_faulted hf ha hi, step_faulted_idle hf⟩

end Sys2Proof.Machine
end

section
/-! # Loading a text (R83, R132, R133) -/

namespace Sys2Proof.Machine

open Sys2Proof.Claims

theorem Memory.slice_succ (m : Memory) (off len : Nat) : m.slice off (len + 1) = m.slice off len ++ [m.read (off + len)] := by
  simp [Memory.slice, List.range_succ]

@[simp] theorem length_textChars (s : State) : (textChars s).length = s.tlen.toNat := Memory.length_slice _ _ _

theorem after_of_exec {i : Instr} {s t : State} (h : exec i s = .next t) : after i s = t := by
  simp [after, h]

theorem after_textClear (s : State) : after .textClear s = (s.setText s.text 0#9).setResp okResp := rfl

/-- TEXT_PUSH of a text that is not full (R133). -/
theorem after_textPush {s : State} (ch : Byte) (h : s.tlen.toNat ≠ s.cfg.textMax) :
    after (.textPush ch) s = (s.setText (s.text.write s.tlen.toNat ch) (s.tlen + 1#9)).setResp okResp :=
  after_of_exec (by simp [exec, execTextPush, h])

theorem storageInv_after {s : State} (i : Instr) (hs : StorageInv s) : StorageInv (after i s) := by
  obtain ⟨t, ht⟩ := exec_next i s
  rw [after_of_exec ht]
  exact storageInv_stepInvariant.exec ht hs

/-- TEXT_PUSH appends its byte to the text. -/
theorem textChars_after_textPush {s : State} (hs : StorageInv s) (ch : Byte) (h : s.tlen.toNat < s.cfg.textMax) :
    textChars (after (.textPush ch) s) = textChars s ++ [ch] := by
  obtain ⟨⟨-, htext⟩, -, hcfg⟩ := hs
  have hsucc : (s.tlen + 1#9).toNat = s.tlen.toNat + 1 := toNat_tlen_succ (textMax_le_of_wellFormed hcfg) h
  have hold : (s.text.write s.tlen.toNat ch).slice 0 s.tlen.toNat = s.text.slice 0 s.tlen.toNat :=
    Memory.slice_congr fun k hk => Memory.read_write_other _ _ (by omega)
  have hnew : (s.text.write s.tlen.toNat ch).read (0 + s.tlen.toNat) = ch := by
    rw [Nat.zero_add, Memory.read_write htext, if_pos rfl]
  rw [after_textPush ch h.ne]
  simp only [textChars, State.setResp_text, State.setResp_tlen, State.setText_text, State.setText_tlen]
  rw [hsucc, Memory.slice_succ, hold, hnew]

/-- A run of pushes that fits appends the string, and each push answers (OK, 0x0000). -/
theorem afterAll_textPush (l : List Byte) {s : State} (hs : StorageInv s) (hlen : s.tlen.toNat + l.length ≤ s.cfg.textMax)
    (hresp : s.resp = okResp) :
    textChars (afterAll (l.map Instr.textPush) s) = textChars s ++ l ∧
      (afterAll (l.map Instr.textPush) s).resp = okResp := by
  induction l generalizing s with
  | nil => simp [afterAll, hresp]
  | cons ch l ih =>
    simp only [List.length_cons] at hlen
    have hroom : s.tlen.toNat < s.cfg.textMax := by omega
    have happend := textChars_after_textPush hs ch hroom
    have htlen : (after (.textPush ch) s).tlen.toNat = s.tlen.toNat + 1 := by
      simpa using congrArg List.length happend
    have hpush := after_textPush ch hroom.ne
    have hrest := ih (storageInv_after (.textPush ch) hs) (by rw [htlen, hpush]; simp; omega) (by rw [hpush]; rfl)
    simpa [afterAll, happend] using hrest

/-- Settles O28: TEXT_CLEAR leaves the empty text, and the pushes append the string to it. -/
theorem putsLoadsTheString : Obligations.PutsLoadsTheString := by
  intro l s hs hlen
  have hcleared : StorageInv (after .textClear s) := storageInv_after .textClear hs
  obtain ⟨hchars, hresp⟩ := afterAll_textPush l hcleared (by simpa [after_textClear] using hlen) rfl
  have htext : textChars (afterAll (.textClear :: l.map Instr.textPush) s) = l := hchars
  exact ⟨by rw [← length_textChars, htext], htext, hresp⟩

end Sys2Proof.Machine
end

section
/-! # The glyph store: its index and its rows (R100 to R104) -/

namespace Sys2Proof.Machine

/-! ## The glyph index -/

/-- Dividing the index of a row by the font's height gives the character's place in the table. -/
theorem glyphIndex_ediv_height {f : Font} {r : Nat} (ch : Byte) (hr : r < f.height) :
    glyphIndex f ch r / f.height = (ch.toNat : Int) - 32 := by
  have hheight : (f.height : Int) ≠ 0 := by omega
  have hrow : (r : Int) / f.height = 0 := Int.ediv_eq_zero_of_lt (by omega) (by omega)
  rw [glyphIndex, Int.add_comm, Int.add_mul_ediv_right _ _ hheight, hrow, Int.zero_add]

/-- The index is at or past the start of the table's character `k` exactly when the character is: the three ranges of R102
are this at `k = 0` and `k = 95`. -/
theorem le_glyphIndex_iff {f : Font} {r : Nat} (ch : Byte) (hr : r < f.height) (k : Int) :
    k * f.height ≤ glyphIndex f ch r ↔ k ≤ (ch.toNat : Int) - 32 := by
  have hheight : (0 : Int) < f.height := by omega
  rw [← Int.le_ediv_iff_mul_le hheight, glyphIndex_ediv_height ch hr]

theorem glyphIndex_nonneg_iff {f : Font} {r : Nat} (ch : Byte) (hr : r < f.height) :
    0 ≤ glyphIndex f ch r ↔ 32 ≤ ch.toNat := by
  have h := le_glyphIndex_iff ch hr 0
  omega

theorem length_default_le_glyphIndex_iff {f : Font} {r : Nat} (ch : Byte) (hr : r < f.height) :
    95 * (f.height : Int) ≤ glyphIndex f ch r ↔ 127 ≤ ch.toNat := by
  have h := le_glyphIndex_iff ch hr 95
  omega

/-! ## The rows of a table -/

/-- At a natural index a lookup is the table's own. -/
@[simp] theorem glyphRow_natCast (g : GlyphStore) (f : Font) (n : Nat) : glyphRow g f n = (g.table f)[n]? := by
  by_cases h : (g.table f).length ≤ n <;> simp [glyphRow, glyphLen, h]

/-- A lookup fails exactly where the index is negative or past the table (R100). -/
theorem glyphRow_eq_none_iff {g : GlyphStore} {f : Font} {i : Int} :
    glyphRow g f i = none ↔ i < 0 ∨ ((g.table f).length : Int) ≤ i := by
  cases i with
  | ofNat n => simp
  | negSucc n => simp [glyphRow, Int.negSucc_lt_zero]

theorem tableOk_iff {g : GlyphStore} {f : Font} : g.tableOk f = true ↔ 95 * f.height ≤ (g.table f).length :=
  decide_eq_true_iff

/-- Settles O21: the index is negative exactly below character 32 and at or past `95 * FH` exactly from 127 on, and a lookup
fails at a negative index and past the table alone. -/
theorem glyphIndexRange : Obligations.GlyphIndexRange := by
  intro f ch r g hr
  have hnonneg := glyphIndex_nonneg_iff ch hr
  have hpast := length_default_le_glyphIndex_iff ch hr
  refine ⟨rfl, fun hlow hhigh => ⟨by omega, by omega, fun hok => ?_⟩, fun hlow => ?_, fun hhigh => ?_⟩
  · rw [tableOk_iff] at hok
    rw [Ne, glyphRow_eq_none_iff]
    omega
  · rw [glyphRow_eq_none_iff]
    omega
  · rw [glyphRow_eq_none_iff]
    omega

/-! ## GLYPH_READ -/

theorem exec_glyphRead (f : Font) (idx : Half) (s : State) :
    exec (.glyphRead f idx) s =
      .next (s.setResp (((s.glyph.table f)[idx.toNat]?).elim (failResp .pixelOutOfBounds) dataResp)) := by
  rw [exec_eq_completed, course, glyphRow_natCast]
  cases (s.glyph.table f)[idx.toNat]? <;> rfl

/-- Settles O22: the answer is the table's row where it has one, and it has none at or past its length. -/
theorem glyphReadAnswersTheRow : Obligations.GlyphReadAnswersTheRow := by
  refine fun f idx s => ⟨fun row hrow => ?_, fun hlen => ?_⟩
  · rw [exec_glyphRead, hrow]
    rfl
  · rw [exec_glyphRead, List.getElem?_eq_none hlen]
    rfl

end Sys2Proof.Machine
end

section
/-! # The pixel encoder: its pixels, its fills and its reads (R110 to R117)

The framebuffer is read bit by bit: `getLsbD_read_drawn` says which bit a draw changes, and two canonical framebuffers with
the same bits are equal, so the laws of R117 are facts about single bits. -/

namespace Sys2Proof.Machine

open Sys2Proof.Safety Sys2Proof.Claims

/-! ## Pixel addresses -/

/-- Pixels of one byte share their column and their page, and of one bit their row in the page (R110). -/
theorem pixel_address_eq_iff {x y x' y' : Nat} (hx : x < 128) (hx' : x' < 128) :
    (pixelByte x y = pixelByte x' y' ∧ pixelBit y = pixelBit y') ↔ x = x' ∧ y = y' := by
  simp only [pixelByte, pixelBit, displayWidth]
  omega

/-- The pixel of bit `n` of byte `i` is in column `i mod 128` and row `8 * (i div 128) + n` (R110). -/
theorem address_of_pixel {i n : Nat} (hn : n < 8) :
    pixelByte (i % 128) (8 * (i / 128) + n) = i ∧ pixelBit (8 * (i / 128) + n) = n := by
  simp only [pixelByte, pixelBit, displayWidth]
  omega

/-- Settles O13: a pixel's column, page and row in its page are the digits of its byte and bit. -/
theorem pixelAddressIsABijection : Obligations.PixelAddressIsABijection := by
  refine ⟨fun x y hx hy => ?_, fun x y x' y' hx _ hx' _ hbyte hbit => ?_, fun i n hi hn => ?_⟩
  · exact ⟨rfl, rfl, Nat.le_of_lt_succ (pixelByte_lt hx hy), Nat.le_of_lt_succ (pixelBit_lt y)⟩
  · exact (pixel_address_eq_iff hx hx').mp ⟨hbyte, hbit⟩
  · exact ⟨i % 128, 8 * (i / 128) + n, by omega, by omega, address_of_pixel hn⟩

/-! ## Bits of the framebuffer -/

/-- Painting sets its own bit to the colour and leaves the other bits of the byte (R112). -/
theorem getLsbD_paintBit (v : Byte) {n k : Nat} (hk : k < 8) (c : Color) :
    (paintBit v n c).getLsbD k = if k = n then isWhite c else v.getLsbD k := by
  have hmask : (1#8 <<< n).getLsbD k = decide (k = n) := by
    rw [← BitVec.twoPow_eq, BitVec.getLsbD_twoPow]
    grind
  cases c with
  | white =>
    rw [paintBit, BitVec.getLsbD_or, hmask]
    by_cases h : k = n <;> simp [isWhite, h]
  | black =>
    rw [paintBit, BitVec.getLsbD_and, BitVec.getLsbD_not, hmask]
    by_cases h : k = n <;> simp [isWhite, h, hk]

theorem Memory.ext_of_wf {size : Nat} {m n : Memory} (hm : m.wf size = true) (hn : n.wf size = true)
    (h : ∀ a, a < size → m.read a = n.read a) : m = n :=
  Memory.ext_of_read hm hn fun a _ ha => h a ha

/-- Canonical memories with the same bits are equal. -/
theorem Memory.ext_of_getLsbD {size : Nat} {m n : Memory} (hm : m.wf size = true) (hn : n.wf size = true)
    (h : ∀ a k, k < 8 → (m.read a).getLsbD k = (n.read a).getLsbD k) : m = n :=
  Memory.ext_of_wf hm hn fun a _ => BitVec.eq_of_getLsbD_eq fun k hk => h a k hk

/-- The framebuffer after a draw of an in-range pixel (R112). -/
def drawn (x y : Nat) (c : Color) (m : Memory) : Memory :=
  m.write (pixelByte x y) (paintBit (m.read (pixelByte x y)) (pixelBit y) c)

section
variable {m : Memory} (hm : m.wf fbBytes = true)
include hm

theorem drawn_wf {x y : Nat} (hx : x < 128) (hy : y < 64) (c : Color) : (drawn x y c m).wf fbBytes = true :=
  Memory.write_wf hm _ (pixelByte_lt hx hy)

/-- A draw sets its pixel's bit to the colour and leaves every other bit of the framebuffer. -/
theorem getLsbD_read_drawn (x y : Nat) (c : Color) (a : Nat) {k : Nat} (hk : k < 8) :
    ((drawn x y c m).read a).getLsbD k =
      if a = pixelByte x y ∧ k = pixelBit y then isWhite c else (m.read a).getLsbD k := by
  rw [drawn, Memory.read_write hm]
  by_cases ha : a = pixelByte x y
  · simp [ha, getLsbD_paintBit _ hk]
  · simp [ha]

/-- The second of two draws of one pixel decides its colour (R117). -/
theorem drawn_drawn_same {x y : Nat} (hx : x < 128) (hy : y < 64) (c d : Color) :
    drawn x y d (drawn x y c m) = drawn x y d m := by
  have hc := drawn_wf hm hx hy c
  refine Memory.ext_of_getLsbD (drawn_wf hc hx hy d) (drawn_wf hm hx hy d) fun a k hk => ?_
  rw [getLsbD_read_drawn hc _ _ _ _ hk, getLsbD_read_drawn hm _ _ _ _ hk, getLsbD_read_drawn hm _ _ _ _ hk]
  split_ifs <;> rfl

/-- Draws of two pixels change two different bits, so their order does not matter (R117). -/
theorem drawn_comm {x y x' y' : Nat} (hx : x < 128) (hy : y < 64) (hx' : x' < 128) (hy' : y' < 64)
    (hne : ¬(x = x' ∧ y = y')) (c c' : Color) :
    drawn x' y' c' (drawn x y c m) = drawn x y c (drawn x' y' c' m) := by
  have hc := drawn_wf hm hx hy c
  have hc' := drawn_wf hm hx' hy' c'
  refine Memory.ext_of_getLsbD (drawn_wf hc hx' hy' c') (drawn_wf hc' hx hy c) fun a k hk => ?_
  have hother : a = pixelByte x y ∧ k = pixelBit y → ¬(a = pixelByte x' y' ∧ k = pixelBit y') :=
    fun ⟨hbyte, hbit⟩ ⟨hbyte', hbit'⟩ =>
      hne ((pixel_address_eq_iff hx hx').mp ⟨hbyte.symm.trans hbyte', hbit.symm.trans hbit'⟩)
  simp only [getLsbD_read_drawn hc _ _ _ _ hk, getLsbD_read_drawn hc' _ _ _ _ hk, getLsbD_read_drawn hm _ _ _ _ hk]
  by_cases h : a = pixelByte x y ∧ k = pixelBit y
  · simp only [if_pos h, if_neg (hother h)]
  · simp only [if_neg h]

/-- A fill forgets the fill before it (R117). -/
theorem filled_filled (v w : Byte) : filled w (filled v m) = filled w m := by
  have hv := filled_wf v hm
  refine Memory.ext_of_wf (filled_wf w hv) (filled_wf w hm) fun a ha => ?_
  rw [read_filled w hv ha, read_filled w hm ha]

end

/-- A command that writes the framebuffer and answers changes nothing but FB and RESP. -/
theorem setFb_setResp_frame (s : State) (m : Memory) (r : Resp) :
    (s.setFb m).setResp r = { s with fb := ((s.setFb m).setResp r).fb, resp := r } := rfl

/-- The later of two writes of FB and of RESP stands. -/
@[simp] theorem setFb_setResp_setFb_setResp (s : State) (m m' : Memory) (r r' : Resp) :
    (((s.setFb m).setResp r).setFb m').setResp r' = (s.setFb m').setResp r' := rfl

/-! ## DRAW_PIXEL -/

section
variable {x y : Byte} {s : State}

theorem exec_drawPixel_inside (hx : x.toNat < 128) (hy : y.toNat < 64) (c : Color) (hidle : s.burstBusy = false) :
    exec (.drawPixel x y c) s = .next ((s.setFb (drawn x.toNat y.toNat c s.fb)).setResp okResp) := by
  rw [exec_eq_completed, course, putPixel_inside hx hy c hidle]
  rfl

theorem after_drawPixel_inside (hx : x.toNat < 128) (hy : y.toNat < 64) (c : Color) (hidle : s.burstBusy = false) :
    after (.drawPixel x y c) s = (s.setFb (drawn x.toNat y.toNat c s.fb)).setResp okResp :=
  after_of_exec (exec_drawPixel_inside hx hy c hidle)

theorem exec_drawPixel_busy (hx : x.toNat < 128) (hy : y.toNat < 64) (c : Color) (hbusy : s.burstBusy = true) :
    exec (.drawPixel x y c) s = .next (s.raise .fbWriteDuringBurst) := by
  rw [exec_eq_completed, course, putPixel_inside_busy hx hy c hbusy]
  rfl

/-- The response to a draw outside the display, by DRAW_OOB (R112, R114). -/
def outsideResp : DrawOob → Resp
  | .fail => failResp .pixelOutOfBounds
  | .ignore => okResp

theorem exec_drawPixel_outside (h : ¬(x.toNat < 128 ∧ y.toNat < 64)) (c : Color) (s : State) :
    exec (.drawPixel x y c) s = .next (s.setResp (outsideResp s.cfg.drawOob)) := by
  rw [exec_eq_completed, course, putPixel_outside h]
  cases s.cfg.drawOob <;> rfl

end

/-- Settles O15: PutPixel outside the display answers by DRAW_OOB before it looks at the transfer. -/
theorem drawPixelOutsideWritesNothing : Obligations.DrawPixelOutsideWritesNothing := by
  intro x y c s h
  rw [exec_drawPixel_outside (by omega)]
  cases s.cfg.drawOob <;> rfl

/-- Settles O14: a draw changes one bit, and a pixel has that bit exactly when it is the drawn one. -/
theorem drawPixelPaintsOnePixel : Obligations.DrawPixelPaintsOnePixel := by
  intro x y c s hidle hwf hx hy
  refine ⟨_, exec_drawPixel_inside hx hy c hidle, setFb_setResp_frame _ _ _, drawn_wf hwf hx hy c, fun X Y hX _ => ?_,
    fun a ha => ?_⟩
  · simp only [pixelAt, State.setResp_fb, State.setFb_fb, getLsbD_read_drawn hwf _ _ _ _ (pixelBit_lt Y),
      pixel_address_eq_iff hX hx]
  · exact Memory.read_write_other _ _ ha

/-! ## FILL -/

section
variable {s : State} (c : Color)

theorem exec_fill_idle (hidle : s.burstBusy = false) :
    exec (.fill c) s = .next ((s.setFb (filled (fillByte c) s.fb)).setResp okResp) := by
  rw [exec_eq_completed, course, fbFill_idle _ hidle]
  rfl

theorem after_fill_idle (hidle : s.burstBusy = false) :
    after (.fill c) s = (s.setFb (filled (fillByte c) s.fb)).setResp okResp :=
  after_of_exec (exec_fill_idle c hidle)

theorem exec_fill_busy (hbusy : s.burstBusy = true) : exec (.fill c) s = .next (s.raise .fbWriteDuringBurst) := by
  rw [exec_eq_completed, course, fbFill_busy _ hbusy]
  rfl

end

/-- Settles O16: the fill writes each of the 1024 bytes, and its first write faults during a burst. -/
theorem fillSetsEveryByte : Obligations.FillSetsEveryByte := by
  refine fun c s hwf => ⟨fun hidle => ?_, exec_fill_busy c⟩
  refine ⟨_, exec_fill_idle c hidle, setFb_setResp_frame _ _ _, ?_⟩
  rw [State.setResp_fb, State.setFb_fb]
  refine ⟨filled_wf _ hwf, fun a ha => ?_⟩
  rw [read_filled _ hwf ha]
  cases c <;> rfl

/-! ## FB_READ -/

theorem exec_fbRead_inside {idx : Half} (h : idx.toNat < 1024) (s : State) :
    exec (.fbRead idx) s = .next (s.setResp (dataResp (zext16 (s.fb.read idx.toNat)))) := by
  rw [exec_eq_completed, course, if_neg (Nat.not_le.mpr h)]
  rfl

theorem exec_fbRead_outside {idx : Half} (h : 1024 ≤ idx.toNat) (s : State) :
    exec (.fbRead idx) s = .next (s.setResp (failResp .operandOutOfRange)) := by
  rw [exec_eq_completed, course, if_pos h]
  rfl

/-- Settles O17: the answer turns on the index check alone, and only RESP is written. -/
theorem fbReadAnswersTheByte : Obligations.FbReadAnswersTheByte :=
  fun _ s => ⟨fun h => exec_fbRead_inside h s, fun h => exec_fbRead_outside h s⟩

/-! ## The laws of R117 -/

/-- Settles O18: the byte read holds the drawn bit at the pixel's place and the old bits elsewhere. -/
theorem drawnPixelReadsBack : Obligations.DrawnPixelReadsBack := by
  intro x y c idx s hidle hwf hx hy hidx
  have hin : idx.toNat < 1024 := hidx ▸ pixelByte_lt hx hy
  rw [after_drawPixel_inside hx hy c hidle]
  refine ⟨_, exec_fbRead_inside hin _, rfl, fun n hn => ?_⟩
  have hbit := getLsbD_read_drawn hwf x.toNat y.toNat c idx.toNat hn
  have hn16 : n < 16 := by omega
  simpa [dataResp, zext16, hn16, hidx] using hbit

/-- Settles O19: the second draw finds its bit drawn, and the second fill writes every byte again. -/
theorem drawAndFillAreIdempotent : Obligations.DrawAndFillAreIdempotent := by
  refine fun s hidle hwf => ⟨fun x y c => ?_, fun c d => ?_⟩
  · by_cases hin : x.toNat < 128 ∧ y.toNat < 64
    · obtain ⟨hx, hy⟩ := hin
      simp [after_drawPixel_inside hx hy, hidle, drawn_drawn_same hwf hx hy]
    · rw [after_of_exec (exec_drawPixel_outside hin c _), after_of_exec (exec_drawPixel_outside hin c _)]
      rfl
  · simp [after_fill_idle, hidle, filled_filled hwf]

/-- Settles O20: the two draws write different bits, and each answers (OK, 0x0000). -/
theorem drawsToDistinctPixelsCommute : Obligations.DrawsToDistinctPixelsCommute := by
  intro x y x' y' c c' s hidle hwf hx hy hx' hy' hne
  have hpixels : ¬(x.toNat = x'.toNat ∧ y.toNat = y'.toNat) :=
    fun ⟨hxx, hyy⟩ => hne (Prod.ext (BitVec.eq_of_toNat_eq hxx) (BitVec.eq_of_toNat_eq hyy))
  simp [after_drawPixel_inside hx hy, after_drawPixel_inside hx' hy', hidle, drawn_comm hwf hx hy hx' hy' hpixels]

end Sys2Proof.Machine
end

section
/-! # Framebuffer writes during a burst (R113, R216, R244)

With a transfer in flight a character faults at its first cell, which is the cell at the cursor: the top of the padding
column, or the left end of glyph row 0 where the table holds that row. -/

namespace Sys2Proof.Machine

open Sys2Proof.Claims

/-! ## The fit check and the rows of the table -/

theorem fits_iff {k : FitCheck} {cx cy : Nat} {f : Font} : fits k cx cy f = true ↔ FitsAt k cx cy f := by
  cases k <;> simp [fits, FitsAt, displayWidth, displayHeight]

theorem fontHeight_pos (f : Font) : 0 < f.height := by cases f <;> decide

theorem fontWidth_pos (f : Font) : 0 < f.width := by cases f <;> decide

theorem glyphIndex_of_printable {ch : Byte} (h : 32 ≤ ch.toNat) (f : Font) (r : Nat) :
    glyphIndex f ch r = ((ch.toNat - 32) * f.height + r : Nat) := by
  simp [glyphIndex, Nat.cast_sub h]

/-- Looking up row `r` of a character fails exactly from the first row on that the table does not hold (R100, R102). -/
theorem glyphRow_glyphIndex_eq_none_iff {g : GlyphStore} {ch : Byte} {f : Font} {r : Nat} (hr : r < f.height) :
    glyphRow g f (glyphIndex f ch r) = none ↔ rowsHeld g ch f ≤ r := by
  rw [glyphRow_eq_none_iff, rowsHeld]
  split
  case isTrue hlow =>
    have hnonneg := glyphIndex_nonneg_iff ch hr
    omega
  case isFalse hprintable =>
    rw [glyphIndex_of_printable (Nat.not_lt.mp hprintable)]
    omega

/-! ## The first cell of a character -/

theorem range_eq_zero_cons {n : Nat} (h : 0 < n) : ∃ l, List.range n = 0 :: l := by
  obtain ⟨k, rfl⟩ := Nat.exists_eq_succ_of_ne_zero h.ne'
  exact ⟨_, List.range_succ_eq_map⟩

theorem paddingCells_cons (f : Font) (c : Color) (cx cy : Nat) :
    ∃ l, paddingCells f c cx cy = (cx, cy, otherColor c) :: l := by
  obtain ⟨l, hl⟩ := range_eq_zero_cons (fontHeight_pos f)
  exact ⟨_, by rw [paddingCells, hl]; rfl⟩

theorem rowCells_zero_cons (f : Font) (c : Color) (cx cy : Nat) (row : Half) :
    ∃ d l, rowCells f c cx cy 0 row = (cx, cy, d) :: l := by
  obtain ⟨l, hl⟩ := range_eq_zero_cons (fontWidth_pos f)
  exact ⟨_, _, by rw [rowCells, hl]; rfl⟩

section
variable {s : State} (hbusy : s.burstBusy = true)
include hbusy

theorem putPixels_cons_busy {x y : Nat} (hx : x < 128) (hy : y < 64) (c : Color) (rest : List (Nat × Nat × Color)) :
    putPixels ((x, y, c) :: rest) s = .raised (s.raise .fbWriteDuringBurst) := by
  rw [putPixels, putPixel_inside_busy hx hy c hbusy, Run.andThen_raised]

section
variable (hcx : s.cx.toNat < 128) (hcy : s.cy.toNat < 64)
include hcx hcy

theorem paintPadding_true_busy (f : Font) (c : Color) :
    paintPadding f c true s = .raised (s.raise .fbWriteDuringBurst) := by
  obtain ⟨l, hl⟩ := paddingCells_cons f c s.cx.toNat s.cy.toNat
  rw [paintPadding, if_pos rfl, hl, putPixels_cons_busy hbusy hcx hcy, Run.andThen_raised]

theorem paintRows_busy_of_held {ch : Byte} {f : Font} (hheld : 0 < rowsHeld s.glyph ch f) (c : Color) :
    paintRows ch f c (List.range f.height) s = .raised (s.raise .fbWriteDuringBurst) := by
  obtain ⟨rows, hrows⟩ := range_eq_zero_cons (fontHeight_pos f)
  have hsome : glyphRow s.glyph f (glyphIndex f ch 0) ≠ none := by
    rw [Ne, glyphRow_glyphIndex_eq_none_iff (fontHeight_pos f)]
    omega
  obtain ⟨row, hrow⟩ := Option.ne_none_iff_exists'.mp hsome
  obtain ⟨d, cells, hcells⟩ := rowCells_zero_cons f c s.cx.toNat s.cy.toNat row
  simp only [hrows, paintRows, hrow, hcells, putPixels_cons_busy hbusy hcx hcy, Run.andThen_raised]

end

/-- A character that passes its fit check on the display and reaches a pixel faults (R113). -/
theorem rasterChar_busy_of_reached {ch : Byte} {f : Font} {p : Bool} (hcy : s.cy.toNat < 64)
    (hfits : FitsAt s.cfg.fitCheck s.cx.toNat s.cy.toNat f) (hreach : p = true ∨ 0 < rowsHeld s.glyph ch f) (c : Color) :
    rasterChar ch f c p s = .raised (s.raise .fbWriteDuringBurst) := by
  have hfit := fits_iff.mpr hfits
  have hcx : s.cx.toNat < 128 := by
    have hadvance := fits_advance hfit
    omega
  rw [rasterChar, if_pos hfit]
  cases p with
  | true => rw [paintPadding_true_busy hbusy hcx hcy, Run.andThen_raised]
  | false =>
    have hheld : 0 < rowsHeld s.glyph ch f := by simpa using hreach
    simp [paintPadding, paintRows_busy_of_held hbusy hcx hcy hheld]

theorem rasterText_cons_busy_of_reached {ch : Byte} {f : Font} {p : Bool} (hcy : s.cy.toNat < 64)
    (hfits : FitsAt s.cfg.fitCheck s.cx.toNat s.cy.toNat f) (hreach : p = true ∨ 0 < rowsHeld s.glyph ch f) (c : Color)
    (rest : List Byte) : rasterText f c p (ch :: rest) s = .raised (s.raise .fbWriteDuringBurst) := by
  rw [rasterText, rasterChar_busy_of_reached hbusy hcy hfits hreach, Run.andThen_raised]

theorem exec_write_busy (f : Font) (x y : Byte) (b c : Color) (p u : Bool) :
    exec (.write f x y b c p u) s = .next (s.raise .fbWriteDuringBurst) := by
  rw [exec_eq_completed, course, fbFill_busy _ hbusy, Run.andThen_raised, completed_raised]

end

/-- Without padding, a character whose row 0 the table does not hold fails before its first pixel, in flight or not (R145). -/
theorem rasterChar_of_no_row {ch : Byte} {f : Font} {s : State} (hfits : FitsAt s.cfg.fitCheck s.cx.toNat s.cy.toNat f)
    (hheld : rowsHeld s.glyph ch f = 0) (c : Color) : rasterChar ch f c false s = .ret (failResp .pixelOutOfBounds) s := by
  obtain ⟨rows, hrows⟩ := range_eq_zero_cons (fontHeight_pos f)
  have hnone := (glyphRow_glyphIndex_eq_none_iff (fontHeight_pos f)).mpr hheld.le
  simp [rasterChar, fits_iff.mpr hfits, paintPadding, hrows, paintRows, hnone]

theorem textChars_cons {s : State} (h : 0 < s.tlen.toNat) : ∃ rest, textChars s = s.text.read 0 :: rest := by
  obtain ⟨l, hl⟩ := range_eq_zero_cons h
  exact ⟨_, by rw [textChars, Memory.slice, hl]; rfl⟩

/-- Settles O45: FBWrite faults, and each faulting command makes one before any other change; the failing row lookup comes
before the first. -/
theorem writeDuringBurstFaults : Obligations.WriteDuringBurstFaults := by
  intro s hbusy
  refine ⟨fun i v => ?_, fun x y c hx hy => exec_drawPixel_busy hx hy c hbusy, fun c => exec_fill_busy c hbusy,
    fun ch f c p hcy hfits hreach => ?_, fun ch f c hfits hheld => ?_, fun f c p hcy hfits hlen hreach => ?_,
    exec_write_busy hbusy⟩
  · rw [fbWrite_busy hbusy]
    rfl
  · rw [exec_eq_completed, course, rasterChar_busy_of_reached hbusy hcy hfits hreach]
    rfl
  · rw [exec_eq_completed, course, rasterChar_of_no_row hfits hheld]
    rfl
  · obtain ⟨rest, htext⟩ := textChars_cons hlen
    rw [exec_eq_completed, course, htext, rasterText_cons_busy_of_reached hbusy hcy hfits hreach]
    rfl

end Sys2Proof.Machine
end

section
/-! # The cursor and the text: SET_CURSOR, CURSOR_READ, TEXT_CLEAR, TEXT_PUSH (R130 to R133) -/

namespace Sys2Proof.Machine

open Sys2Proof.Claims

/-- Settles O24: one check decides both coordinates. -/
theorem setCursorSetsBothOrNeither : Obligations.SetCursorSetsBothOrNeither := by
  intro x y s
  rw [exec_eq_completed, course]
  obtain ⟨hx, hy, he⟩ | ⟨hout, he⟩ := moveCursor_cases x y s
  · rw [he]
    exact ⟨fun _ => rfl, fun h => by omega⟩
  · rw [he]
    exact ⟨fun hin => absurd hin hout, fun _ => rfl⟩

theorem extractLsb'_cursorData_cy (s : State) : (cursorData s).extractLsb' 8 8 = s.cy := by
  refine BitVec.eq_of_getLsbD_eq fun k hk => ?_
  have hk16 : 8 + k < 16 := by omega
  simp [cursorData, hk, hk16]

theorem extractLsb'_cursorData_cx (s : State) : (cursorData s).extractLsb' 0 8 = s.cx := by
  refine BitVec.eq_of_getLsbD_eq fun k hk => ?_
  have hk16 : k < 16 := by omega
  simp [cursorData, hk, hk16]

/-- Settles O25: the two bytes of the response data are the two coordinates. -/
theorem cursorReadAnswersTheCursor : Obligations.CursorReadAnswersTheCursor :=
  fun s => ⟨_, rfl, rfl, extractLsb'_cursorData_cy s, extractLsb'_cursorData_cx s⟩

/-- Settles O26: TEXT_CLEAR writes TLEN and RESP, and writes TEXT back as it was. -/
theorem textClearEmptiesTheText : Obligations.TextClearEmptiesTheText := fun _ => rfl

theorem exec_textPush_room {s : State} (ch : Byte) (h : s.tlen.toNat ≠ s.cfg.textMax) :
    exec (.textPush ch) s = .next ((s.setText (s.text.write s.tlen.toNat ch) (s.tlen + 1#9)).setResp okResp) := by
  rw [exec_eq_completed, course, if_neg h, completed_ret]

theorem exec_textPush_full {s : State} (ch : Byte) (h : s.tlen.toNat = s.cfg.textMax) :
    exec (.textPush ch) s = .next (s.setResp (failResp .operandOutOfRange)) := by
  rw [exec_eq_completed, course, if_pos h, completed_ret]

/-- Settles O27: below TEXT_MAX the push writes one byte and TLEN does not wrap; at TEXT_MAX it is refused. -/
theorem textPushAppends : Obligations.TextPushAppends := by
  refine fun ch s hs => ⟨fun hroom => ?_, exec_textPush_full ch⟩
  obtain ⟨⟨-, htext⟩, -, hcfg⟩ := hs
  refine ⟨_, exec_textPush_room ch hroom.ne, rfl, toNat_tlen_succ (textMax_le_of_wellFormed hcfg) hroom,
    Memory.read_write_same htext _ ch, fun k hk => Memory.read_write_other _ ch hk⟩

end Sys2Proof.Machine
end

section
/-! # One character: its cells and its picture (R140 to R147)

With no transfer in flight a character paints a list of cells, `charCells`: its padding column, then glyph rows
`0 .. k-1`. How many rows `k` it reaches is decided by the table and by DRAW_OOB (`paintRows_idle_eq`), and the picture of
the cells is `painted` (`pixel_charMemory`). -/

namespace Sys2Proof.Machine

open Sys2Proof.Safety Sys2Proof.Claims

/-! ## Painting cells -/

@[simp] theorem setFb_setFb (s : State) (m m' : Memory) : (s.setFb m).setFb m' = s.setFb m' := rfl

@[simp] theorem setFb_self (s : State) : s.setFb s.fb = s := rfl

/-- PutPixel answers `Ok` on this cell (R112). -/
def accepts (cfg : Config) (cell : Nat × Nat × Color) : Bool :=
  decide (cfg.drawOob = .ignore) || inBounds cell.1 cell.2.1

/-- The framebuffer after PutPixel on a cell (R112). -/
def paintCell (m : Memory) (cell : Nat × Nat × Color) : Memory :=
  if inBounds cell.1 cell.2.1 then drawn cell.1 cell.2.1 cell.2.2 m else m

def paintCells (cells : List (Nat × Nat × Color)) (m : Memory) : Memory := cells.foldl paintCell m

theorem paintCells_append (cells cells' : List (Nat × Nat × Color)) (m : Memory) :
    paintCells (cells ++ cells') m = paintCells cells' (paintCells cells m) := List.foldl_append

theorem putPixel_idle_eq {s : State} (hidle : s.burstBusy = false) (cell : Nat × Nat × Color) :
    putPixel cell.1 cell.2.1 cell.2.2 s = .ret (accepts s.cfg cell) (s.setFb (paintCell s.fb cell)) := by
  by_cases hin : cell.1 < 128 ∧ cell.2.1 < 64
  · have hb := (inBounds_iff _ _).mpr hin
    rw [putPixel_inside hin.1 hin.2 _ hidle]
    simp [accepts, paintCell, hb, drawn]
  · have hb : inBounds cell.1 cell.2.1 = false := by rwa [← Bool.not_eq_true, inBounds_iff]
    rw [putPixel_outside hin]
    simp only [accepts, paintCell, hb, Bool.or_false]
    rfl

/-- PutPixel on each cell paints the cells before the first one that fails (R143, R145). -/
theorem putPixels_idle_eq (cells : List (Nat × Nat × Color)) {s : State} (hidle : s.burstBusy = false) :
    putPixels cells s =
      .ret (cells.all (accepts s.cfg)) (s.setFb (paintCells (cells.takeWhile (accepts s.cfg)) s.fb)) := by
  induction cells generalizing s with
  | nil => rfl
  | cons cell rest ih =>
    obtain ⟨x, y, c⟩ := cell
    rw [putPixels, putPixel_idle_eq hidle (x, y, c), Run.andThen_ret]
    cases ha : accepts s.cfg (x, y, c) with
    | false =>
      have hout : inBounds x y = false := (Bool.or_eq_false_iff.mp ha).2
      simp [ha, paintCell, paintCells, hout]
    | true =>
      rw [if_pos rfl, ih (s := s.setFb (paintCell s.fb (x, y, c))) hidle]
      simp [ha, paintCells]

/-! ## Pixels -/

/-- The pixel of a framebuffer (R51). -/
def Memory.pixel (m : Memory) (X Y : Nat) : Bool := (m.read (pixelByte X Y)).getLsbD (pixelBit Y)

theorem pixelAt_eq (s : State) (X Y : Nat) : pixelAt s X Y = s.fb.pixel X Y := rfl

theorem paintCell_wf {m : Memory} (hm : m.wf fbBytes = true) (cell : Nat × Nat × Color) :
    (paintCell m cell).wf fbBytes = true := by
  unfold paintCell
  split
  case isTrue hin =>
    obtain ⟨hx, hy⟩ := (inBounds_iff _ _).mp hin
    exact drawn_wf hm hx hy _
  case isFalse => exact hm

theorem paintCells_wf (cells : List (Nat × Nat × Color)) {m : Memory} (hm : m.wf fbBytes = true) :
    (paintCells cells m).wf fbBytes = true := by
  induction cells generalizing m with
  | nil => exact hm
  | cons cell rest ih => exact ih (paintCell_wf hm cell)

section
variable {X Y : Nat} (hX : X < 128) (hY : Y < 64)
include hX hY

theorem pixel_paintCell {m : Memory} (hm : m.wf fbBytes = true) (cell : Nat × Nat × Color) :
    (paintCell m cell).pixel X Y = if X = cell.1 ∧ Y = cell.2.1 then isWhite cell.2.2 else m.pixel X Y := by
  unfold paintCell
  split
  case isTrue hin =>
    obtain ⟨hx, -⟩ := (inBounds_iff _ _).mp hin
    simp only [Memory.pixel, getLsbD_read_drawn hm _ _ _ _ (pixelBit_lt Y), pixel_address_eq_iff hX hx]
  case isFalse hout =>
    rw [inBounds_iff] at hout
    rw [if_neg fun ⟨hx, hy⟩ => hout ⟨hx ▸ hX, hy ▸ hY⟩]

/-- Where the cells' colours are given by a picture `g`, the pixels of the cells take it and the others stay. -/
theorem pixel_paintCells (g : Nat → Nat → Color) (cells : List (Nat × Nat × Color))
    (hg : ∀ cell ∈ cells, cell.2.2 = g cell.1 cell.2.1) {m : Memory} (hm : m.wf fbBytes = true) :
    (paintCells cells m).pixel X Y = if (X, Y, g X Y) ∈ cells then isWhite (g X Y) else m.pixel X Y := by
  induction cells generalizing m with
  | nil => rfl
  | cons cell rest ih =>
    obtain ⟨x, y, c⟩ := cell
    obtain ⟨hc, hrest⟩ := List.forall_mem_cons.mp hg
    have hpaint := ih hrest (paintCell_wf hm (x, y, c))
    rw [pixel_paintCell hX hY hm] at hpaint
    have hhead : (X, Y, g X Y) = (x, y, c) ↔ X = x ∧ Y = y := by
      simp only [Prod.mk.injEq, and_congr_right_iff, and_iff_left_iff_imp]
      rintro rfl rfl
      exact hc.symm
    rw [paintCells, List.foldl_cons, ← paintCells, hpaint]
    simp only [List.mem_cons, hhead]
    by_cases hmem : (X, Y, g X Y) ∈ rest
    · simp [hmem]
    · by_cases hxy : X = x ∧ Y = y
      · obtain ⟨rfl, rfl⟩ := hxy
        simp [← hc]
      · simp [hmem, hxy]

end

/-! ## Runs of rows -/

theorem takeWhile_range {n k : Nat} {p : Nat → Bool} (hk : k ≤ n) (hp : ∀ r, r < n → p r = decide (r < k)) :
    (List.range n).takeWhile p = List.range k := by
  obtain ⟨d, rfl⟩ := Nat.exists_eq_add_of_le hk
  rw [List.range_add, List.takeWhile_append_of_pos fun r hr => by
    have hrk := List.mem_range.mp hr
    simp [hp r (by omega), hrk]]
  cases d with
  | zero => simp
  | succ d => simp [List.range_succ_eq_map, hp k (by omega)]

theorem all_range {n k : Nat} {p : Nat → Bool} (hk : k ≤ n) (hp : ∀ r, r < n → p r = decide (r < k)) :
    (List.range n).all p = decide (k = n) := by
  rw [Bool.eq_iff_iff]
  simp only [List.all_eq_true, List.mem_range, decide_eq_true_eq]
  refine ⟨fun h => ?_, fun h r hr => by simp [hp r hr, h, hr]⟩
  by_contra hne
  have := h k (by omega)
  simp [hp k (by omega)] at this

theorem rowsDrawn_le (cfg : Config) (cy : Nat) (f : Font) : rowsDrawn cfg cy f ≤ f.height := by
  cases h : cfg.drawOob <;> simp [rowsDrawn, h]

theorem rowsHeld_le (g : GlyphStore) (ch : Byte) (f : Font) : rowsHeld g ch f ≤ f.height := by
  unfold rowsHeld
  split <;> simp

/-- PutPixel accepts the cells of a character's row exactly below `rowsDrawn`, where the column is on the display. -/
theorem accepts_eq {cfg : Config} {x cy r : Nat} {f : Font} (hx : x < 128) (hr : r < f.height) (c : Color) :
    accepts cfg (x, cy + r, c) = decide (r < rowsDrawn cfg cy f) := by
  rw [Bool.eq_iff_iff]
  cases h : cfg.drawOob with
  | fail => simp [accepts, rowsDrawn, h, inBounds_iff, hx]; omega
  | ignore => simp [accepts, rowsDrawn, h, hr]

/-! ## The padding column -/

/-- The first `n` cells of the padding column (R143). -/
def columnCells (c : Color) (cx cy n : Nat) : List (Nat × Nat × Color) :=
  (List.range n).map fun r => (cx, cy + r, otherColor c)

theorem mem_columnCells {c d : Color} {cx cy n X Y : Nat} :
    (X, Y, d) ∈ columnCells c cx cy n ↔ X = cx ∧ cy ≤ Y ∧ Y < cy + n ∧ d = otherColor c := by
  simp only [columnCells, List.mem_map, List.mem_range, Prod.mk.injEq]
  constructor
  · rintro ⟨r, hr, rfl, rfl, rfl⟩
    exact ⟨rfl, by omega, by omega, rfl⟩
  · rintro ⟨rfl, hle, hlt, rfl⟩
    exact ⟨Y - cy, by omega, rfl, by omega, rfl⟩

theorem putPixels_paddingCells {s : State} (hidle : s.burstBusy = false) (hcx : s.cx.toNat < 128) (f : Font) (c : Color) :
    putPixels (paddingCells f c s.cx.toNat s.cy.toNat) s =
      .ret (decide (rowsDrawn s.cfg s.cy.toNat f = f.height))
        (s.setFb (paintCells (columnCells c s.cx.toNat s.cy.toNat (rowsDrawn s.cfg s.cy.toNat f)) s.fb)) := by
  have hle := rowsDrawn_le s.cfg s.cy.toNat f
  have haccepts : ∀ r, r < f.height →
      (accepts s.cfg ∘ fun r => (s.cx.toNat, s.cy.toNat + r, otherColor c)) r =
        decide (r < rowsDrawn s.cfg s.cy.toNat f) := fun r hr => accepts_eq hcx hr _
  rw [putPixels_idle_eq _ hidle, paddingCells, List.takeWhile_map, List.all_map, takeWhile_range hle haccepts,
    all_range hle haccepts, columnCells]

/-! ## The glyph rows -/

/-- Row `r` of a character that the table holds (R101, R102). -/
def heldRow (g : GlyphStore) (ch : Byte) (f : Font) (r : Nat) : Half :=
  ((g.table f)[(ch.toNat - 32) * f.height + r]?).getD 0#16

theorem glyphRow_of_held {g : GlyphStore} {ch : Byte} {f : Font} {r : Nat} (h : r < rowsHeld g ch f) :
    glyphRow g f (glyphIndex f ch r) = some (heldRow g ch f r) := by
  unfold rowsHeld at h
  split at h
  case isTrue => omega
  case isFalse hprintable =>
    have hlt : (ch.toNat - 32) * f.height + r < (g.table f).length := by omega
    rw [glyphIndex_of_printable (Nat.not_lt.mp hprintable), glyphRow_natCast, heldRow, List.getElem?_eq_getElem hlt,
      Option.getD_some]

/-- The cells of glyph rows `0 .. k-1` (R144, R145). -/
def boxCells (g : GlyphStore) (ch : Byte) (f : Font) (c : Color) (x0 y0 : Nat) (rows : List Nat) :
    List (Nat × Nat × Color) :=
  rows.flatMap fun r => rowCells f c x0 y0 r (heldRow g ch f r)

theorem mem_boxCells {g : GlyphStore} {ch : Byte} {f : Font} {c d : Color} {x0 y0 k X Y : Nat} :
    (X, Y, d) ∈ boxCells g ch f c x0 y0 (List.range k) ↔ (x0 ≤ X ∧ X < x0 + f.width ∧ y0 ≤ Y ∧ Y < y0 + k) ∧
      d = cellColor (glyphBit (heldRow g ch f (Y - y0)) (X - x0)) c := by
  simp only [boxCells, rowCells, List.mem_flatMap, List.mem_map, List.mem_range, Prod.mk.injEq]
  constructor
  · rintro ⟨r, hr, j, hj, rfl, rfl, rfl⟩
    simp only [Nat.add_sub_cancel_left]
    exact ⟨by omega, trivial⟩
  · rintro ⟨⟨_, _, _, _⟩, rfl⟩
    exact ⟨Y - y0, by omega, X - x0, by omega, by omega, by omega, rfl⟩

/-- The pixels of a row are all accepted or all rejected, and a row that is rejected paints nothing. -/
theorem putPixels_rowCells {s : State} (hidle : s.burstBusy = false) {f : Font} {r : Nat} (hr : r < f.height)
    (hcx : s.cx.toNat + f.width ≤ 128) (c : Color) (row : Half) :
    putPixels (rowCells f c s.cx.toNat s.cy.toNat r row) s =
      if r < rowsDrawn s.cfg s.cy.toNat f then
        .ret true (s.setFb (paintCells (rowCells f c s.cx.toNat s.cy.toNat r row) s.fb))
      else .ret false s := by
  have haccepts : ∀ cell ∈ rowCells f c s.cx.toNat s.cy.toNat r row,
      accepts s.cfg cell = decide (r < rowsDrawn s.cfg s.cy.toNat f) := by
    intro cell hcell
    obtain ⟨j, hj, rfl⟩ := List.mem_map.mp hcell
    rw [List.mem_range] at hj
    exact accepts_eq (by omega) hr _
  rw [putPixels_idle_eq _ hidle]
  split
  case isTrue hdrawn =>
    have hall : ∀ cell ∈ rowCells f c s.cx.toNat s.cy.toNat r row, accepts s.cfg cell = true := fun cell hcell => by
      simp [haccepts cell hcell, hdrawn]
    rw [List.all_eq_true.mpr hall, List.takeWhile_eq_self_iff.mpr hall]
  case isFalse hdrawn =>
    obtain ⟨l, hl⟩ := range_eq_zero_cons (fontWidth_pos f)
    have hfirst := haccepts (s.cx.toNat, s.cy.toNat + r, cellColor (glyphBit row 0) c) (by simp [rowCells, hl])
    rw [decide_eq_false hdrawn] at hfirst
    simp [rowCells, hl, hfirst, paintCells]

/-- Row `r` of a character is painted: the table holds it and PutPixel accepts its cells. -/
def rowPaints (s : State) (ch : Byte) (f : Font) (r : Nat) : Bool :=
  decide (r < min (rowsHeld s.glyph ch f) (rowsDrawn s.cfg s.cy.toNat f))

/-- Step 3 of a character paints the rows before the first one that fails (R144, R145). -/
theorem paintRows_idle_eq (ch : Byte) (f : Font) (c : Color) (rows : List Nat) (hrows : ∀ r ∈ rows, r < f.height)
    {s : State} (hidle : s.burstBusy = false) (hcx : s.cx.toNat + f.width ≤ 128) :
    paintRows ch f c rows s = .ret (rows.all (rowPaints s ch f))
      (s.setFb (paintCells (boxCells s.glyph ch f c s.cx.toNat s.cy.toNat (rows.takeWhile (rowPaints s ch f))) s.fb)) := by
  induction rows generalizing s with
  | nil => rfl
  | cons r rest ih =>
    obtain ⟨hr, hrest⟩ := List.forall_mem_cons.mp hrows
    by_cases hheld : r < rowsHeld s.glyph ch f
    · simp only [paintRows, glyphRow_of_held hheld, putPixels_rowCells hidle hr hcx]
      by_cases hdrawn : r < rowsDrawn s.cfg s.cy.toNat f
      · have hpaints : rowPaints s ch f r = true := by simp [rowPaints, hheld, hdrawn]
        have hsame (m : Memory) : rowPaints (s.setFb m) ch f = rowPaints s ch f := rfl
        rw [if_pos hdrawn, Run.andThen_ret, if_pos rfl, ih hrest (s := s.setFb (paintCells _ s.fb)) hidle hcx, hsame]
        simp [hpaints, boxCells, paintCells_append]
      · have hpaints : rowPaints s ch f r = false := by simp [rowPaints, hdrawn]
        simp [hdrawn, hpaints, boxCells, paintCells]
    · have hpaints : rowPaints s ch f r = false := by simp [rowPaints, hheld]
      have hnone := (glyphRow_glyphIndex_eq_none_iff (g := s.glyph) (ch := ch) hr).mpr (Nat.not_lt.mp hheld)
      simp [paintRows, hnone, hpaints, boxCells, paintCells]

theorem paintRows_range {s : State} (hidle : s.burstBusy = false) (ch : Byte) (f : Font) (c : Color)
    (hcx : s.cx.toNat + f.width ≤ 128) :
    paintRows ch f c (List.range f.height) s =
      .ret (decide (min (rowsHeld s.glyph ch f) (rowsDrawn s.cfg s.cy.toNat f) = f.height))
        (s.setFb (paintCells (boxCells s.glyph ch f c s.cx.toNat s.cy.toNat
          (List.range (min (rowsHeld s.glyph ch f) (rowsDrawn s.cfg s.cy.toNat f)))) s.fb)) := by
  have hle := le_trans (min_le_left (rowsHeld s.glyph ch f) (rowsDrawn s.cfg s.cy.toNat f)) (rowsHeld_le s.glyph ch f)
  have hpaints : ∀ r, r < f.height → rowPaints s ch f r =
      decide (r < min (rowsHeld s.glyph ch f) (rowsDrawn s.cfg s.cy.toNat f)) := fun _ _ => rfl
  rw [paintRows_idle_eq _ _ _ _ (fun r hr => List.mem_range.mp hr) hidle hcx, takeWhile_range hle hpaints,
    all_range hle hpaints]

end Sys2Proof.Machine
end

section
/-! # WRITE_CHAR (R140 to R147) -/

namespace Sys2Proof.Machine

open Sys2Proof.Safety Sys2Proof.Claims

/-! ## The picture of a character -/

/-- The column of a character's box: the padding column, where there is one, stands to its left (R143, R144). -/
def boxLeft (cx : Nat) (p : Bool) : Nat := cx + (if p then 1 else 0)

/-- The cells of the padding column that PutPixel accepts, where there is one (R143). -/
def paddingPart (s : State) (f : Font) (c : Color) (p : Bool) : List (Nat × Nat × Color) :=
  if p then columnCells c s.cx.toNat s.cy.toNat (rowsDrawn s.cfg s.cy.toNat f) else []

/-- The cells a character paints when it reaches `k` glyph rows. -/
def charCells (s : State) (ch : Byte) (f : Font) (c : Color) (p : Bool) (k : Nat) : List (Nat × Nat × Color) :=
  paddingPart s f c p ++ boxCells s.glyph ch f c (boxLeft s.cx.toNat p) s.cy.toNat (List.range k)

/-- The framebuffer after a character that reaches `k` glyph rows. -/
def charMemory (s : State) (ch : Byte) (f : Font) (c : Color) (p : Bool) (k : Nat) : Memory :=
  paintCells (charCells s ch f c p k) s.fb

theorem charMemory_wf {s : State} (hwf : s.fb.wf fbBytes = true) (ch : Byte) (f : Font) (c : Color) (p : Bool) (k : Nat) :
    (charMemory s ch f c p k).wf fbBytes = true := paintCells_wf _ hwf

/-- The colour of each cell a character paints: `¬c` in the padding column, and the glyph's in the box. -/
def charColor (s : State) (ch : Byte) (f : Font) (c : Color) (p : Bool) (X Y : Nat) : Color :=
  if p ∧ X = s.cx.toNat then otherColor c
  else cellColor (glyphBit (heldRow s.glyph ch f (Y - s.cy.toNat)) (X - boxLeft s.cx.toNat p)) c

theorem mem_charCells {s : State} {ch : Byte} {f : Font} {c d : Color} {p : Bool} {k X Y : Nat} :
    (X, Y, d) ∈ charCells s ch f c p k ↔ d = charColor s ch f c p X Y ∧
      ((p ∧ X = s.cx.toNat ∧ s.cy.toNat ≤ Y ∧ Y < s.cy.toNat + rowsDrawn s.cfg s.cy.toNat f) ∨
        (boxLeft s.cx.toNat p ≤ X ∧ X < boxLeft s.cx.toNat p + f.width ∧ s.cy.toNat ≤ Y ∧ Y < s.cy.toNat + k)) := by
  rw [charCells, List.mem_append, mem_boxCells, charColor]
  cases p with
  | false => simp [paddingPart, and_comm]
  | true =>
    simp only [paddingPart, boxLeft, if_true, mem_columnCells, true_and]
    by_cases hcol : X = s.cx.toNat
    · have hleft : ¬ s.cx.toNat + 1 ≤ s.cx.toNat := by omega
      simp only [hcol, hleft, if_true, false_and, or_false, true_and]
      tauto
    · simp only [hcol, if_false, false_and, false_or]
      tauto

theorem isWhite_otherColor (c : Color) : isWhite (otherColor c) = !isWhite c := by cases c <;> rfl

theorem isWhite_cellColor (bit : Bool) (c : Color) : isWhite (cellColor bit c) = (bit == isWhite c) := by
  cases bit <;> cases c <;> rfl

theorem toNat_ofNat_byte {n : Nat} (h : n < 256) : (BitVec.ofNat 8 n).toNat = n := Nat.mod_eq_of_lt h

theorem charAdvance_le (cfg : Config) (f : Font) (p : Bool) : charAdvance cfg f p ≤ f.width + 2 := by
  simp only [charAdvance]
  split <;> split <;> omega

theorem fontWidth_le (f : Font) : f.width ≤ 16 := by cases f <;> decide

/-- The shift test of a cell of the box is the glyph's pixel (R53, R101). -/
theorem glyphBit_heldRow (g : GlyphStore) (ch : Byte) (f : Font) (r : Nat) {j : Nat} (hj : j < f.width) :
    glyphBit (heldRow g ch f r) j = glyphPixel g ch f r j :=
  glyphBitTestIsTheRowBit _ _ (Nat.lt_of_lt_of_le hj (fontWidth_le f))

/-- Above row 64 the padding's accepted rows are all the rows of the character. -/
theorem lt_add_rowsDrawn_iff {cfg : Config} {cy Y : Nat} {f : Font} (hY : Y < 64) :
    Y < cy + rowsDrawn cfg cy f ↔ Y < cy + f.height := by
  cases h : cfg.drawOob <;> simp only [rowsDrawn, h]
  omega

/-- The cells of a character that reaches `k` rows give the picture of R143 to R145. -/
theorem pixel_charMemory {s : State} (hwf : s.fb.wf fbBytes = true) (ch : Byte) (f : Font) (c : Color) (p : Bool) (k : Nat)
    {X Y : Nat} (hX : X < 128) (hY : Y < 64) : (charMemory s ch f c p k).pixel X Y = painted s ch f c p k X Y := by
  have hcolor : ∀ cell ∈ charCells s ch f c p k, cell.2.2 = charColor s ch f c p cell.1 cell.2.1 :=
    fun _ hcell => (mem_charCells.mp hcell).1
  rw [charMemory, pixel_paintCells hX hY _ _ hcolor hwf, painted, pixelAt_eq]
  simp only [mem_charCells, lt_add_rowsDrawn_iff hY, true_and]
  by_cases hcol : p = true ∧ X = s.cx.toNat ∧ s.cy.toNat ≤ Y ∧ Y < s.cy.toNat + f.height
  · rw [if_pos (.inl hcol), if_pos hcol, charColor, if_pos ⟨hcol.1, hcol.2.1⟩, isWhite_otherColor]
  · simp only [hcol, false_or, if_false]
    by_cases hbox : boxLeft s.cx.toNat p ≤ X ∧ X < boxLeft s.cx.toNat p + f.width ∧ s.cy.toNat ≤ Y ∧ Y < s.cy.toNat + k
    · have hnot : ¬(p = true ∧ X = s.cx.toNat) := by
        rintro ⟨rfl, hx⟩
        simp [boxLeft] at hbox
        omega
      rw [if_pos hbox, charColor, if_neg hnot, isWhite_cellColor, glyphBit_heldRow _ _ _ _ (by omega)]
      exact (if_pos hbox).symm
    · rw [if_neg hbox]
      exact (if_neg hbox).symm

/-! ## The outcomes of a character that passes its fit check -/

section
variable {s : State} {f : Font} (hidle : s.burstBusy = false) (hfits : FitsAt s.cfg.fitCheck s.cx.toNat s.cy.toNat f)
include hfits

theorem cx_width_le_of_fits : s.cx.toNat + f.width ≤ 127 := fits_advance (fits_iff.mpr hfits)

include hidle

/-- A padding column that runs off the bottom ends the character (R143, R147). -/
theorem rasterChar_of_padding_cut (hcut : rowsDrawn s.cfg s.cy.toNat f < f.height) (ch : Byte) (c : Color) :
    rasterChar ch f c true s = .ret (failResp .pixelOutOfBounds) (s.setFb (charMemory s ch f c true 0)) := by
  have hcx := cx_width_le_of_fits hfits
  have hcells : charCells s ch f c true 0 = columnCells c s.cx.toNat s.cy.toNat (rowsDrawn s.cfg s.cy.toNat f) := by
    simp [charCells, paddingPart, boxCells]
  rw [rasterChar, if_pos (fits_iff.mpr hfits), paintPadding, if_pos rfl, putPixels_paddingCells hidle (by omega),
    decide_eq_false hcut.ne, charMemory, hcells]
  rfl

/-- The padding column drawn whole, and `CX` on the left edge of the box (R143). -/
theorem paintPadding_of_drawn {p : Bool} (hdrawn : p = true → rowsDrawn s.cfg s.cy.toNat f = f.height) (c : Color) :
    paintPadding f c p s = .ret true
      ((s.setFb (paintCells (paddingPart s f c p) s.fb)).setCx (BitVec.ofNat 8 (boxLeft s.cx.toNat p))) := by
  have hcx := cx_width_le_of_fits hfits
  cases p with
  | false => simp [paintPadding, paddingPart, paintCells, boxLeft, State.setCx]
  | true =>
    rw [paintPadding, if_pos rfl, putPixels_paddingCells hidle (by omega), hdrawn rfl, decide_eq_true rfl,
      paddingPart, if_pos rfl, hdrawn rfl]
    rfl

/-- A character whose padding, if any, is drawn whole reaches the rows that the table holds and PutPixel accepts, and fails
unless they are all of its rows (R144 to R147). -/
theorem rasterChar_of_padding_drawn {p : Bool} (hdrawn : p = true → rowsDrawn s.cfg s.cy.toNat f = f.height) (ch : Byte)
    (c : Color) {k : Nat} (hk : k = min (rowsHeld s.glyph ch f) (rowsDrawn s.cfg s.cy.toNat f)) :
    rasterChar ch f c p s =
      if k = f.height then
        .ret (dataResp (zext16 ch))
          ((s.setFb (charMemory s ch f c p k)).setCx (BitVec.ofNat 8 (s.cx.toNat + charAdvance s.cfg f p)))
      else
        .ret (failResp .pixelOutOfBounds)
          ((s.setFb (charMemory s ch f c p k)).setCx (BitVec.ofNat 8 (boxLeft s.cx.toNat p))) := by
  have hcx := cx_width_le_of_fits hfits
  have hleft : boxLeft s.cx.toNat p ≤ s.cx.toNat + 1 := by cases p <;> simp [boxLeft]
  have hwidth := fontWidth_pos f
  have htoNat : (BitVec.ofNat 8 (boxLeft s.cx.toNat p)).toNat = boxLeft s.cx.toNat p := toNat_ofNat_byte (by omega)
  have hadvance : boxLeft s.cx.toNat p + advanceWidth s.cfg f p = s.cx.toNat + charAdvance s.cfg f p := by
    simp only [boxLeft, advanceWidth, charAdvance]
    omega
  have hrows := paintRows_range
    (s := (s.setFb (paintCells (paddingPart s f c p) s.fb)).setCx (BitVec.ofNat 8 (boxLeft s.cx.toNat p)))
    hidle ch f c (by rw [State.setCx_cx, htoNat]; omega)
  simp only [State.setCx_cx, State.setCx_cy, State.setFb_cy, State.setCx_glyph, State.setFb_glyph, State.setCx_cfg,
    State.setFb_cfg, htoNat, ← hk, State.setCx_fb, State.setFb_fb, ← paintCells_append] at hrows
  rw [rasterChar, if_pos (fits_iff.mpr hfits), paintPadding_of_drawn hidle hfits hdrawn c, Run.andThen_ret,
    if_neg (by decide), hrows, Run.andThen_ret]
  by_cases hall : k = f.height
  · rw [decide_eq_true hall, if_pos hall, if_neg (by decide), advanceCx]
    simp only [State.setFb_cx, State.setCx_cx, htoNat, State.setFb_cfg, State.setCx_cfg, hadvance]
    rfl
  · rw [decide_eq_false hall, if_neg hall]
    rfl

omit hidle in
theorem toNat_advanced (p : Bool) :
    (BitVec.ofNat 8 (s.cx.toNat + charAdvance s.cfg f p)).toNat = s.cx.toNat + charAdvance s.cfg f p := by
  have hcx := cx_width_le_of_fits hfits
  have hadvance := charAdvance_le s.cfg f p
  exact toNat_ofNat_byte (by omega)

/-- A character that is held and drawn whole (R146). -/
theorem rasterChar_of_whole {ch : Byte} (hheld : rowsHeld s.glyph ch f = f.height)
    (hdrawn : rowsDrawn s.cfg s.cy.toNat f = f.height) (c : Color) (p : Bool) :
    rasterChar ch f c p s = .ret (dataResp (zext16 ch))
      ((s.setFb (charMemory s ch f c p f.height)).setCx (BitVec.ofNat 8 (s.cx.toNat + charAdvance s.cfg f p))) := by
  rw [rasterChar_of_padding_drawn hidle hfits (fun _ => hdrawn) ch c (k := f.height) (by rw [hheld, hdrawn, min_self]),
    if_pos rfl]

end

theorem exec_writeChar_of_ret {ch : Byte} {f : Font} {c : Color} {p : Bool} {s t : State} {r : Resp}
    (h : rasterChar ch f c p s = .ret r t) : exec (.writeChar ch f c p) s = .next (t.setResp r) := by
  rw [exec_eq_completed, course, h, completed_ret]

/-- Settles O29: the character reaches all its rows. -/
theorem writeCharPaintsTheCharacter : Obligations.WriteCharPaintsTheCharacter := by
  intro ch f c p s hidle hwf hfits hheld hdrawn
  exact ⟨_, exec_writeChar_of_ret (rasterChar_of_whole hidle hfits hheld hdrawn c p), rfl, charMemory_wf hwf ..,
    toNat_advanced hfits p, fun X Y hX hY => pixel_charMemory hwf _ _ _ _ _ hX hY⟩

/-- Settles O31: the character reaches the rows before the first one that fails. -/
theorem writeCharStopsAtTheFailingRow : Obligations.WriteCharStopsAtTheFailingRow := by
  intro ch f c p s hidle hwf hfits hdrawn hshort
  have hcx := cx_width_le_of_fits hfits
  have hchar := rasterChar_of_padding_drawn hidle hfits hdrawn ch c rfl
  rw [if_neg hshort.ne] at hchar
  refine ⟨_, exec_writeChar_of_ret hchar, rfl, charMemory_wf hwf .., ?_, fun X Y hX hY => pixel_charMemory hwf _ _ _ _ _ hX hY⟩
  refine toNat_ofNat_byte ?_
  cases p <;> simp [boxLeft] <;> omega

/-- Settles O32: the padding column stops where PutPixel does, and no glyph row is reached. -/
theorem writeCharStopsInThePadding : Obligations.WriteCharStopsInThePadding := by
  intro ch f c s hidle hwf hfits hcut
  exact ⟨_, exec_writeChar_of_ret (rasterChar_of_padding_cut hidle hfits hcut ch c), rfl, charMemory_wf hwf ..,
    fun X Y hX hY => pixel_charMemory hwf _ _ _ _ _ hX hY⟩

/-- A character that fails its fit check writes nothing, with a transfer in flight or without (R142). -/
theorem rasterChar_of_not_fits {f : Font} {s : State} (h : ¬ FitsAt s.cfg.fitCheck s.cx.toNat s.cy.toNat f) (ch : Byte)
    (c : Color) (p : Bool) : rasterChar ch f c p s = .ret (overflowResp s.cfg.overflowResult) s := by
  rw [rasterChar, if_neg (mt fits_iff.mp h)]

/-- A character that fits echoes itself, or answers PixelOutOfBounds; below character 32 the table holds no row of it. -/
theorem rasterChar_resp_of_fits {f : Font} {s : State} (hidle : s.burstBusy = false)
    (hfits : FitsAt s.cfg.fitCheck s.cx.toNat s.cy.toNat f) (ch : Byte) (c : Color) (p : Bool) :
    ∃ r t, rasterChar ch f c p s = .ret r t ∧
      (r = failResp .pixelOutOfBounds ∨ (32 ≤ ch.toNat ∧ r = dataResp (zext16 ch))) := by
  by_cases hdrawn : p = true → rowsDrawn s.cfg s.cy.toNat f = f.height
  · have hchar := rasterChar_of_padding_drawn hidle hfits hdrawn ch c rfl
    split at hchar
    case isTrue hall =>
      refine ⟨_, _, hchar, .inr ⟨?_, rfl⟩⟩
      by_contra hlow
      have hheight := fontHeight_pos f
      simp [rowsHeld, Nat.not_le.mp hlow] at hall
      omega
    case isFalse => exact ⟨_, _, hchar, .inl rfl⟩
  · obtain ⟨rfl, hne⟩ := Classical.not_imp.mp hdrawn
    have hcut := lt_of_le_of_ne (rowsDrawn_le _ _ _) hne
    exact ⟨_, _, rasterChar_of_padding_cut hidle hfits hcut ch c, .inl rfl⟩

/-- Settles O30: the fit check comes first, and a character that succeeds is printable, so its echo is not 0x0000. -/
theorem writeCharRejectedByTheFitCheck : Obligations.WriteCharRejectedByTheFitCheck := by
  refine fun ch f c p s => ⟨fun hover => ?_, fun hfits hidle => ⟨?_, ?_⟩⟩
  · rw [exec_writeChar_of_ret (rasterChar_of_not_fits hover ch c p)]
    cases s.cfg.overflowResult <;> rfl
  · obtain ⟨r, t, he, rfl | ⟨hlow, -⟩⟩ := rasterChar_resp_of_fits hidle hfits 0#8 c p
    · rw [after_of_exec (exec_writeChar_of_ret he)]
      rfl
    · simp at hlow
  · obtain ⟨r, t, he, rfl | ⟨hprintable, rfl⟩⟩ := rasterChar_resp_of_fits hidle hfits ch c p
    · rw [after_of_exec (exec_writeChar_of_ret he)]
      intro hok
      cases hok
    · rw [after_of_exec (exec_writeChar_of_ret he)]
      intro _ hzero
      have hch : ch.toNat % 65536 = 0 := by simpa [dataResp, zext16] using congrArg BitVec.toNat hzero
      omega

end Sys2Proof.Machine
end

section
/-! # WRITE_STRING and WRITE as their steps (R150, R155, R213, R216)

A command's course does not read RESP, so one step after another sees the states that the whole command goes through, but
for the responses between the steps. -/

namespace Sys2Proof.Machine

open Sys2Proof.Safety Sys2Proof.Claims

/-! ## One command after another response -/

section
variable {i : Instr} {s t : State}

theorem after_setResp_of_ret {a : Resp} (h : course i s = .ret a t) (r : Resp) : after i (s.setResp r) = t.setResp a := by
  refine after_of_exec ?_
  rw [exec_eq_completed, ← disguise_otherResp, course_disguise rfl (.inr rfl), h]
  rfl

theorem after_setResp_of_raised (h : course i s = .raised t) (r : Resp) : after i (s.setResp r) = t.setResp r := by
  refine after_of_exec ?_
  rw [exec_eq_completed, ← disguise_otherResp, course_disguise rfl (.inr rfl), h]
  rfl

theorem fault_resp_of_course_ret {a : Resp} (h : course i s = .ret a t) : t.fault = s.fault ∧ t.resp = s.resp := by
  have hfollows := course_follows i s
  rw [h] at hfollows
  cases hfollows with
  | ends _ hu =>
    exact ⟨hu.keeps (·.fault) fun _ _ huv => huv.fault_resp.1, hu.keeps (·.resp) fun _ _ huv => huv.fault_resp.2⟩

theorem fault_resp_of_course_raised (h : course i s = .raised t) : t.fault ≠ none ∧ t.resp = s.resp := by
  have hfollows := course_follows i s
  rw [h] at hfollows
  cases hfollows with
  | faults f hu => exact ⟨by simp, hu.keeps (·.resp) fun _ _ huv => huv.fault_resp.2⟩

end

/-! ## WRITE_STRING -/

@[simp] theorem setResp_setResp (s : State) (r r' : Resp) : (s.setResp r).setResp r' = s.setResp r' := rfl

/-- The end of a command of several steps: a fault leaves RESP as it was before the first (R216). -/
def respUnlessFaulted (r : Resp) (t : State) : State := if t.fault = none then t else t.setResp r

/-- WRITE_STRING on a text is WRITE_CHAR on its characters, whatever response they find (R150). -/
theorem completed_rasterText (f : Font) (c : Color) (p : Bool) (text : List Byte) {s : State} (hf : s.fault = none)
    (r : Resp) :
    completed (rasterText f c p text s) = .next (respUnlessFaulted s.resp (charByChar f c p text (s.setResp r))) := by
  induction text generalizing s r with
  | nil =>
    rw [respUnlessFaulted, if_pos (by exact hf)]
    rfl
  | cons ch rest ih =>
    rw [rasterText, charByChar]
    cases hchar : rasterChar ch f c p s with
    | raised t =>
      obtain ⟨hfault, hresp⟩ := fault_resp_of_course_raised (i := .writeChar ch f c p) hchar
      have hafter := after_setResp_of_raised (i := .writeChar ch f c p) hchar r
      have hset : t.setResp s.resp = t := hresp ▸ rfl
      simp [hafter, hfault, respUnlessFaulted, hset]
    | ret a t =>
      obtain ⟨hfault, hresp⟩ := fault_resp_of_course_ret (i := .writeChar ch f c p) hchar
      have hafter := after_setResp_of_ret (i := .writeChar ch f c p) hchar r
      have hnone : t.fault = none := hfault.trans hf
      by_cases hok : a.status = .ok
      · simp [hafter, hnone, hok, ← hresp, ih hnone a]
      · simp [hafter, hnone, hok, respUnlessFaulted, failResp]

/-- Settles O33, by induction on the text. -/
theorem writeStringIsWriteCharInOrder : Obligations.WriteStringIsWriteCharInOrder :=
  fun f c p s hf => completed_rasterText f c p (textChars s) hf s.resp

/-- A text's response carries no data (R150). -/
theorem rasterText_resp {f : Font} {c : Color} {p : Bool} {text : List Byte} {s t : State} {r : Resp}
    (h : rasterText f c p text s = .ret r t) : r = failResp r.status := by
  induction text generalizing s with
  | nil =>
    cases h
    rfl
  | cons ch rest ih =>
    rw [rasterText] at h
    cases hchar : rasterChar ch f c p s with
    | raised u =>
      rw [hchar] at h
      cases h
    | ret a u =>
      rw [hchar, Run.andThen_ret] at h
      split at h
      case isTrue => exact ih h
      case isFalse =>
        cases h
        rfl

@[simp] theorem okResp_status : okResp.status = .ok := rfl

/-! ## WRITE -/

/-- With no transfer in flight the steps of WRITE raise no fault, and each finds the state the one before it left. -/
theorem exec_write_idle (f : Font) (x y : Byte) (b c : Color) (p u : Bool) {s : State} (hidle : s.burstBusy = false)
    (hf : s.fault = none) : exec (.write f x y b c p u) s = .next (writeBySteps f x y b c p u s) := by
  rw [exec_eq_completed, course, fbFill_idle _ hidle, Run.andThen_ret, writeBySteps, after_fill_idle b hidle]
  generalize filled (fillByte b) s.fb = m
  generalize hs1 : s.setFb m = s1
  have hidle1 : s1.burstBusy = false := hs1 ▸ hidle
  have hnone : s1.fault = none := hs1 ▸ hf
  simp only [State.setResp_fault, hnone, ne_eq, not_true_eq_false, if_false]
  obtain ⟨-, -, hmove⟩ | ⟨-, hmove⟩ := moveCursor_cases x y s1
  · rw [after_setResp_of_ret (i := .setCursor x y) hmove, hmove]
    generalize hs2 : s1.setCursor x y = s2
    have hidle2 : s2.burstBusy = false := hs2 ▸ hidle1
    obtain ⟨r, m, cx, htext, -⟩ := rasterText_idle f c p (textChars s2) hidle2
    have hafter := after_setResp_of_ret (i := .writeString f c p) htext okResp
    simp only [Run.andThen_ret, State.setResp_resp, okResp_status, htext, hafter, not_true_eq_false, if_false]
    have hresp := rasterText_resp htext
    by_cases hok : r.status = .ok
    · rw [hok] at hresp
      cases u with
      | false =>
        rw [hresp]
        rfl
      | true =>
        obtain ⟨a, t, hflush, -⟩ := flush_idle (s := (s2.setFb m).setCx cx) hidle2
        simp [hok, after_setResp_of_ret (i := .flush) hflush, hflush]
    · simp [hok, ← hresp]
  · rw [after_setResp_of_ret (i := .setCursor x y) hmove, hmove]
    rfl

/-- Settles O36: during a burst both end with the fault of the first byte of the fill. -/
theorem writeIsItsStepsInOrder : Obligations.WriteIsItsStepsInOrder := by
  intro f x y b c p u s hf
  cases hb : s.burstBusy with
  | false => exact exec_write_idle f x y b c p u hb hf
  | true =>
    rw [exec_write_busy hb, writeBySteps, after_of_exec (exec_fill_busy b hb)]
    simp

/-! ## OVERFLOW_RESULT (R142, R150) -/

/-- An operation's end in the block with the other OVERFLOW_RESULT. -/
def Run.withOverflow {α : Type} (r : Run α) (o : OverflowResult) : Run α :=
  match r with
  | .ret a s => .ret a (Claims.withOverflow o s)
  | .raised s => .raised (Claims.withOverflow o s)

section
variable {o : OverflowResult}

theorem Run.andThen_withOverflow {α β : Type} {r : Run α} {k : α → State → Run β}
    (hk : ∀ a t, k a (Claims.withOverflow o t) = (k a t).withOverflow o) :
    (r.withOverflow o).andThen k = (r.andThen k).withOverflow o := by
  cases r with
  | ret a t => exact hk a t
  | raised t => rfl

theorem putPixel_withOverflow (x y : Nat) (c : Color) (s : State) :
    putPixel x y c (withOverflow o s) = (putPixel x y c s).withOverflow o := by
  by_cases hin : x < 128 ∧ y < 64
  · cases hb : s.burstBusy with
    | false =>
      rw [putPixel_inside hin.1 hin.2 c hb, putPixel_inside (s := withOverflow o s) hin.1 hin.2 c hb]
      rfl
    | true =>
      rw [putPixel_inside_busy hin.1 hin.2 c hb, putPixel_inside_busy (s := withOverflow o s) hin.1 hin.2 c hb]
      rfl
  · rw [putPixel_outside hin, putPixel_outside hin]
    rfl

theorem putPixels_withOverflow (cells : List (Nat × Nat × Color)) (s : State) :
    putPixels cells (withOverflow o s) = (putPixels cells s).withOverflow o := by
  induction cells generalizing s with
  | nil => rfl
  | cons cell rest ih =>
    rw [putPixels, putPixels, putPixel_withOverflow, Run.andThen_withOverflow]
    intro ok t
    cases ok with
    | false => rfl
    | true => exact ih t

theorem paintPadding_withOverflow (f : Font) (c : Color) (p : Bool) (s : State) :
    paintPadding f c p (withOverflow o s) = (paintPadding f c p s).withOverflow o := by
  cases p with
  | false => rfl
  | true =>
    rw [paintPadding, paintPadding, if_pos rfl, if_pos rfl, putPixels_withOverflow]
    exact Run.andThen_withOverflow fun ok t => by cases ok <;> rfl

theorem paintRows_withOverflow (ch : Byte) (f : Font) (c : Color) (rows : List Nat) (s : State) :
    paintRows ch f c rows (withOverflow o s) = (paintRows ch f c rows s).withOverflow o := by
  induction rows generalizing s with
  | nil => rfl
  | cons r rest ih =>
    have hglyph : (withOverflow o s).glyph = s.glyph := rfl
    simp only [paintRows, hglyph]
    cases glyphRow s.glyph f (glyphIndex f ch r) with
    | none => rfl
    | some row =>
      simp only [putPixels_withOverflow]
      refine Run.andThen_withOverflow fun ok t => ?_
      cases ok with
      | false => rfl
      | true => exact ih t

/-- A character that passes its fit check does not read OVERFLOW_RESULT. -/
theorem rasterChar_withOverflow {f : Font} {s : State} (hfits : FitsAt s.cfg.fitCheck s.cx.toNat s.cy.toNat f) (ch : Byte)
    (c : Color) (p : Bool) : rasterChar ch f c p (withOverflow o s) = (rasterChar ch f c p s).withOverflow o := by
  have hfit := fits_iff.mpr hfits
  rw [rasterChar, rasterChar, if_pos hfit, if_pos (by exact hfit), paintPadding_withOverflow]
  refine Run.andThen_withOverflow fun ok t => ?_
  cases ok with
  | false => rfl
  | true =>
    simp only [Bool.not_true, Bool.false_eq_true, if_false, paintRows_withOverflow]
    exact Run.andThen_withOverflow fun ok u => by cases ok <;> rfl

/-- At a cursor where the font does not fit, a text ends in the state it found: at its first character, or with each of its
characters rejected in the same way (R150). -/
theorem rasterText_of_not_fits {f : Font} {s : State} (h : ¬ FitsAt s.cfg.fitCheck s.cx.toNat s.cy.toNat f) (c : Color)
    (p : Bool) (text : List Byte) :
    ∃ st, (st = .ok ∨ st = .lineOverflow) ∧ rasterText f c p text s = .ret (failResp st) s := by
  induction text with
  | nil => exact ⟨.ok, .inl rfl, rfl⟩
  | cons ch rest ih =>
    rw [rasterText, rasterChar_of_not_fits h, Run.andThen_ret]
    cases s.cfg.overflowResult with
    | lineOverflow => exact ⟨.lineOverflow, .inr rfl, rfl⟩
    | noOpSuccess => exact ih

/-- Two statuses that a text may answer under the two values of OVERFLOW_RESULT. -/
def StatusByOverflow (st st' : Status) : Prop :=
  st' = st ∨ (st = .lineOverflow ∧ st' = .ok) ∨ (st = .ok ∧ st' = .lineOverflow)

/-- Two ends of a text that differ in OVERFLOW_RESULT and in the status alone. -/
inductive SameButStatus (o : OverflowResult) : Run Resp → Run Resp → Prop
  | ret {st st' : Status} (t : State) (hst : StatusByOverflow st st') :
      SameButStatus o (.ret (failResp st) t) (.ret (failResp st') (withOverflow o t))
  | raised (t : State) : SameButStatus o (.raised t) (.raised (withOverflow o t))

/-- A text under the two values of OVERFLOW_RESULT (R150). -/
theorem rasterText_sameButStatus (f : Font) (c : Color) (p : Bool) (text : List Byte) (s : State) :
    SameButStatus o (rasterText f c p text s) (rasterText f c p text (withOverflow o s)) := by
  induction text generalizing s with
  | nil => exact .ret s (.inl rfl)
  | cons ch rest ih =>
    by_cases hfits : FitsAt s.cfg.fitCheck s.cx.toNat s.cy.toNat f
    · rw [rasterText, rasterText, rasterChar_withOverflow hfits]
      cases rasterChar ch f c p s with
      | raised t => exact .raised t
      | ret r t =>
        simp only [Run.withOverflow, Run.andThen_ret]
        split
        case isTrue => exact ih t
        case isFalse => exact .ret t (.inl rfl)
    · obtain ⟨st, hst, he⟩ := rasterText_of_not_fits hfits c p (ch :: rest)
      obtain ⟨st', hst', he'⟩ := rasterText_of_not_fits (s := withOverflow o s) hfits c p (ch :: rest)
      rw [he, he']
      refine .ret s ?_
      rcases hst with rfl | rfl <;> rcases hst' with rfl | rfl <;> simp [StatusByOverflow]

end

/-- Settles O35: the first rejected character ends the text, or the text goes on from the same cursor and every further
character is rejected there too. -/
theorem overflowResultChangesOnlyTheStatus : Obligations.OverflowResultChangesOnlyTheStatus := by
  intro f c p o s
  have hsame := rasterText_sameButStatus (o := o) f c p (textChars s) s
  have htext : textChars (withOverflow o s) = textChars s := rfl
  rw [exec_eq_completed, exec_eq_completed, course, course, htext]
  generalize rasterText f c p (textChars s) s = r at hsame ⊢
  generalize rasterText f c p (textChars s) (withOverflow o s) = r' at hsame ⊢
  cases hsame with
  | ret t hst => exact ⟨_, _, rfl, rfl, rfl, hst⟩
  | raised t => exact ⟨_, _, rfl, rfl, rfl, .inl rfl⟩

end Sys2Proof.Machine
end

section
/-! # The picture of a text (R150)

A text is painted one character after another: `linePainted` is the picture after its first `n` characters, and each
character adds its own cells to it (`linePainted_succ`). -/

namespace Sys2Proof.Machine

open Sys2Proof.Safety Sys2Proof.Claims

/-! ## One more character -/

theorem rasterText_append {f : Font} {c : Color} {p : Bool} {text rest : List Byte} {s t : State}
    (h : rasterText f c p text s = .ret okResp t) : rasterText f c p (text ++ rest) s = rasterText f c p rest t := by
  induction text generalizing s with
  | nil =>
    cases h
    rfl
  | cons ch text ih =>
    rw [rasterText] at h
    rw [List.cons_append, rasterText]
    cases hchar : rasterChar ch f c p s with
    | raised u =>
      rw [hchar] at h
      cases h
    | ret r u =>
      rw [hchar, Run.andThen_ret] at h
      rw [Run.andThen_ret]
      split at h
      case isTrue hok => rw [if_pos hok, ih h]
      case isFalse hfail =>
        injection h with hr
        exact absurd (congrArg Resp.status hr) hfail

/-- A text of one character that succeeds. -/
theorem rasterText_singleton {ch : Byte} {f : Font} {c : Color} {p : Bool} {s t : State} {r : Resp}
    (h : rasterChar ch f c p s = .ret r t) (hok : r.status = .ok) : rasterText f c p [ch] s = .ret okResp t := by
  rw [rasterText, h, Run.andThen_ret, if_pos hok, rasterText]

theorem charAdvance_pos (cfg : Config) (f : Font) (p : Bool) : 0 < charAdvance cfg f p := by
  have hwidth := fontWidth_pos f
  simp only [charAdvance]
  omega

/-- The padding column and the box of a character stand inside its advance. -/
theorem boxLeft_add_width_le (cfg : Config) (f : Font) (p : Bool) (cx : Nat) :
    boxLeft cx p + f.width ≤ cx + charAdvance cfg f p := by
  simp only [boxLeft, charAdvance]
  omega

/-! ## The picture -/

section
variable (s : State) (f : Font) (c : Color) (p : Bool) (cx cy : Nat) (bg : Nat → Nat → Bool)

/-- The picture after the first `n` characters of a text painted from `(cx, cy)` over a background. -/
def linePainted (n X Y : Nat) : Bool :=
  let w := charAdvance s.cfg f p
  let k := (X - cx) / w
  let j := (X - cx) % w
  let d := if p then 1 else 0
  if cx ≤ X ∧ k < n ∧ cy ≤ Y ∧ Y < cy + f.height then
    if j < d then !isWhite c
    else if j < d + f.width then glyphPixel s.glyph (s.text.read k) f (Y - cy) (j - d) == isWhite c
    else bg X Y
  else bg X Y

theorem textPainted_eq (X Y : Nat) :
    textPainted s f c p cx cy bg X Y = linePainted s f c p cx cy bg s.tlen.toNat X Y := rfl

theorem linePainted_zero (X Y : Nat) : linePainted s f c p cx cy bg 0 X Y = bg X Y :=
  if_neg fun h => Nat.not_lt_zero _ h.2.1

variable {s f c p cx cy bg}

/-- Inside the advance of character `n`, at its column `j`. -/
theorem linePainted_inside {n N j Y : Nat} (hj : j < charAdvance s.cfg f p) (hY : cy ≤ Y ∧ Y < cy + f.height) :
    linePainted s f c p cx cy bg N (cx + n * charAdvance s.cfg f p + j) Y =
      if n < N then
        if j < if p then 1 else 0 then !isWhite c
        else if j < (if p then 1 else 0) + f.width then
          glyphPixel s.glyph (s.text.read n) f (Y - cy) (j - if p then 1 else 0) == isWhite c
        else bg (cx + n * charAdvance s.cfg f p + j) Y
      else bg (cx + n * charAdvance s.cfg f p + j) Y := by
  have hpos := charAdvance_pos s.cfg f p
  simp only [linePainted]
  generalize charAdvance s.cfg f p = w at hj hpos ⊢
  have hin : cx ≤ cx + n * w + j := by omega
  have hoff : cx + n * w + j - cx = n * w + j := by omega
  have hdiv : (n * w + j) / w = n := by rw [Nat.mul_comm, Nat.mul_add_div hpos, Nat.div_eq_of_lt hj, Nat.add_zero]
  have hmod : (n * w + j) % w = j := by rw [Nat.mul_add_mod', Nat.mod_eq_of_lt hj]
  simp only [hoff, hdiv, hmod, hin, hY, true_and, and_true]

/-- Outside the advance of character `n` the picture is the same with it and without it. -/
theorem linePainted_succ_outside {n X : Nat}
    (hX : ¬(cx + n * charAdvance s.cfg f p ≤ X ∧ X < cx + n * charAdvance s.cfg f p + charAdvance s.cfg f p)) (Y : Nat) :
    linePainted s f c p cx cy bg (n + 1) X Y = linePainted s f c p cx cy bg n X Y := by
  have hpos := charAdvance_pos s.cfg f p
  have hne : cx ≤ X → (X - cx) / charAdvance s.cfg f p ≠ n := by
    intro hcx hn
    have hlow := Nat.div_mul_le_self (X - cx) (charAdvance s.cfg f p)
    have hhigh := Nat.lt_div_mul_add hpos (a := X - cx)
    rw [hn] at hlow hhigh
    omega
  refine if_congr (and_congr_right fun hcx => and_congr_left fun _ => ?_) rfl rfl
  have hk := hne hcx
  omega

/-- Character `n` adds its padding column and its box, at its own place, to the picture. -/
theorem linePainted_succ {x0 n : Nat} (hx0 : x0 = cx + n * charAdvance s.cfg f p) (X Y : Nat) :
    linePainted s f c p cx cy bg (n + 1) X Y =
      if p = true ∧ X = x0 ∧ cy ≤ Y ∧ Y < cy + f.height then !isWhite c
      else if boxLeft x0 p ≤ X ∧ X < boxLeft x0 p + f.width ∧ cy ≤ Y ∧ Y < cy + f.height then
        glyphPixel s.glyph (s.text.read n) f (Y - cy) (X - boxLeft x0 p) == isWhite c
      else linePainted s f c p cx cy bg n X Y := by
  have hpos := charAdvance_pos s.cfg f p
  have hbox := boxLeft_add_width_le s.cfg f p x0
  have hleft : x0 ≤ boxLeft x0 p := Nat.le_add_right _ _
  by_cases hY : cy ≤ Y ∧ Y < cy + f.height
  · by_cases hX : x0 ≤ X ∧ X < x0 + charAdvance s.cfg f p
    · obtain ⟨j, rfl⟩ := Nat.exists_eq_add_of_le hX.1
      have hj : j < charAdvance s.cfg f p := by omega
      have hpicture (N : Nat) := linePainted_inside (c := c) (cx := cx) (bg := bg) (n := n) (N := N) hj hY
      rw [← hx0] at hpicture
      have hcol : (p = true ∧ x0 + j = x0) ↔ j < if p then 1 else 0 := by cases p <;> simp
      have hfrom : boxLeft x0 p ≤ x0 + j ↔ (if p then 1 else 0) ≤ j := Nat.add_le_add_iff_left
      have hto : x0 + j < boxLeft x0 p + f.width ↔ j < (if p then 1 else 0) + f.width := by
        rw [boxLeft, Nat.add_assoc, Nat.add_lt_add_iff_left]
      have hcell : x0 + j - boxLeft x0 p = j - if p then 1 else 0 := Nat.add_sub_add_left _ _ _
      simp only [hpicture, hY, and_true, hcol, hfrom, hto, hcell, Nat.lt_succ_self, Nat.lt_irrefl, if_true, if_false]
      by_cases hd : j < if p then 1 else 0
      · rw [if_pos hd, if_pos hd]
      · simp only [hd, Nat.not_lt.mp hd, if_false, true_and]
    · rw [if_neg (c := p = true ∧ _) (by rintro ⟨-, hcol, -⟩; omega),
        if_neg (c := boxLeft x0 p ≤ X ∧ _) (by rintro ⟨hfrom, hto, -⟩; omega), linePainted_succ_outside (hx0 ▸ hX)]
  · have hnot (P Q : Prop) : ¬(P ∧ Q ∧ cy ≤ Y ∧ Y < cy + f.height) := fun h => hY h.2.2
    simp only [linePainted, hnot, if_false]

end

/-- A text whose first `n` characters fit, are held and are drawn: the picture and the column after them. -/
theorem rasterText_paints {f : Font} {p : Bool} {s : State} (hidle : s.burstBusy = false)
    (hwf : s.fb.wf fbBytes = true) (hfits : TextFits s f p s.cx.toNat s.cy.toNat) (c : Color) {n : Nat}
    (hn : n ≤ s.tlen.toNat) :
    ∃ m x, rasterText f c p (s.text.slice 0 n) s = .ret okResp ((s.setFb m).setCx x) ∧ m.wf fbBytes = true ∧
      x.toNat = s.cx.toNat + n * charAdvance s.cfg f p ∧
      ∀ X Y, X < 128 → Y < 64 →
        m.pixel X Y = linePainted s f c p s.cx.toNat s.cy.toNat (pixelAt s) n X Y := by
  induction n with
  | zero => exact ⟨s.fb, s.cx, rfl, hwf, by omega, fun X Y _ _ => (linePainted_zero ..).symm⟩
  | succ n ih =>
    obtain ⟨m, x, htext, hm, hx, hpixel⟩ := ih (by omega)
    obtain ⟨hfit, hheld, hdrawn⟩ := hfits n hn
    rw [← hx] at hfit
    have hchar := rasterChar_of_whole (s := (s.setFb m).setCx x) (ch := s.text.read n) hidle hfit hheld hdrawn c p
    have hnext := toNat_advanced (s := (s.setFb m).setCx x) hfit p
    refine ⟨_, _, ?_, charMemory_wf (s := (s.setFb m).setCx x) hm (s.text.read n) f c p f.height,
      hnext.trans ?_, fun X Y hX hY => ?_⟩
    · rw [Memory.slice_succ, Nat.zero_add, rasterText_append htext, rasterText_singleton hchar rfl]
      rfl
    · simp only [State.setCx_cx, State.setCx_cfg, State.setFb_cfg, hx]
      ring
    · rw [pixel_charMemory (s := (s.setFb m).setCx x) hm _ _ _ _ _ hX hY, linePainted_succ hx, ← hpixel X Y hX hY]
      rfl

/-- Settles O34, by induction on the number of characters painted. -/
theorem writeStringPaintsTheText : Obligations.WriteStringPaintsTheText := by
  intro f c p s hidle hwf hfits
  obtain ⟨m, x, htext, hm, hx, hpixel⟩ := rasterText_paints hidle hwf hfits c le_rfl
  refine ⟨((s.setFb m).setCx x).setResp okResp, ?_, rfl, hm, hx, fun X Y hX hY => ?_⟩
  · rw [exec_eq_completed, course, textChars, htext, completed_ret]
  · exact (hpixel X Y hX hY).trans (textPainted_eq ..).symm

end Sys2Proof.Machine
end

section
/-! # Flushes that the transport takes, and WRITE (R155, R172 to R179) -/

namespace Sys2Proof.Machine

open Sys2Proof.Safety Sys2Proof.Claims

/-! ## A flush answered true -/

/-- The state after a run of transfers: the line in the mode of the last one, the events, and the answers that are left. -/
def State.sent (s : State) (m : LineMode) (events : List Event) (rest : List Bool) : State :=
  { s with dc := dcLevel s.cfg m, trace := s.trace ++ events, answers := rest }

@[simp] theorem State.sent_sent (s : State) (m m' : LineMode) (events events' : List Event) (rest rest' : List Bool) :
    (s.sent m events rest).sent m' events' rest' = s.sent m' (events ++ events') rest' := by
  simp [State.sent, dcLevel]

section
variable {s : State} {rest : List Bool} (hidle : s.burstBusy = false)
include hidle

theorem sendCmd_true (ha : s.answers = true :: rest) (b : Byte) :
    sendCmd b s = .ret true (s.sent .cmd [.dc .cmd, .cmd b true] rest) := by
  rw [sendCmd_idle b hidle]
  simp [transferred, drawAnswer, ha, State.sent]

theorem sendData_true (ha : s.answers = true :: rest) (off len : Nat) :
    sendData off len s = .ret true (s.sent .data [.dc .data, .data off len (s.fb.slice off len) true] rest) := by
  rw [sendData_idle off len hidle]
  simp [transferred, drawAnswer, ha, State.sent]

theorem sendCmd_sent (m : LineMode) (events : List Event) (b : Byte) :
    sendCmd b (s.sent m events (true :: rest)) = .ret true (s.sent .cmd (events ++ [.dc .cmd, .cmd b true]) rest) := by
  rw [sendCmd_true (by exact hidle) rfl, State.sent_sent]

theorem sendData_sent (m : LineMode) (events : List Event) (off len : Nat) :
    sendData off len (s.sent m events (true :: rest)) =
      .ret true (s.sent .data (events ++ [.dc .data, .data off len (s.fb.slice off len) true]) rest) := by
  rw [sendData_true (by exact hidle) rfl, State.sent_sent]
  rfl

end

/-- The events of page `n`: its four transfers (R176). -/
def pageEvents (cfg : Config) (fb : Memory) (n : Nat) : List Event :=
  [.dc .cmd, .cmd (pageSelect cfg n) true, .dc .cmd, .cmd cfg.cmdColLow true, .dc .cmd, .cmd cfg.cmdColHigh true,
    .dc .data, .data (n * displayWidth) displayWidth (fb.slice (n * displayWidth) displayWidth) true]

theorem goodTransfers_succ (cfg : Config) (fb : Memory) (n : Nat) :
    goodTransfers cfg fb (n + 1) = goodTransfers cfg fb n ++ transferEvents cfg fb n true := by
  simp [goodTransfers, List.range_succ]

/-- The transfers of whole pages, page by page. -/
theorem goodTransfers_pages (cfg : Config) (fb : Memory) (n : Nat) :
    goodTransfers cfg fb (4 * n) = (List.range n).flatMap (pageEvents cfg fb) := by
  induction n with
  | zero => rfl
  | succ n ih =>
    have hpage : transferEvents cfg fb (4 * n) true ++ transferEvents cfg fb (4 * n + 1) true ++
        transferEvents cfg fb (4 * n + 2) true ++ transferEvents cfg fb (4 * n + 3) true = pageEvents cfg fb n := by
      have hdiv : (4 * n + 3) / 4 = n := by omega
      simp [transferEvents, pageEvents, pageSelect, displayWidth, hdiv, Nat.mul_comm 128 n]
    rw [List.range_succ, List.flatMap_append, ← ih, List.flatMap_singleton, ← hpage, Nat.mul_succ]
    simp only [goodTransfers_succ, List.append_assoc]

section
variable {s : State} {rest : List Bool}

theorem sendPage_true (hidle : s.burstBusy = false) (ha : s.answers = okAnswers 4 rest) (n : Nat) :
    sendPage n s = .ret .ok (s.sent .data (pageEvents s.cfg s.fb n) rest) := by
  simp only [sendPage, sendCmd_true (rest := okAnswers 3 rest) hidle ha, sendCmd_sent hidle, sendData_sent hidle, okAnswers,
    List.replicate_succ, List.replicate_zero, List.cons_append, List.nil_append, Run.andThen_ret, Bool.not_true,
    Bool.false_eq_true, if_false]
  rfl

theorem okAnswers_add (n k : Nat) (rest : List Bool) : okAnswers (n + k) rest = okAnswers n (okAnswers k rest) := by
  rw [okAnswers, List.replicate_add, List.append_assoc]
  rfl

theorem sendPages_true {pages : List Nat} (hne : pages ≠ []) (hidle : s.burstBusy = false)
    (ha : s.answers = okAnswers (4 * pages.length) rest) :
    sendPages pages s = .ret okResp (s.sent .data (pages.flatMap (pageEvents s.cfg s.fb)) rest) := by
  induction pages generalizing s with
  | nil => contradiction
  | cons n pages ih =>
    rw [List.length_cons, Nat.mul_succ, Nat.add_comm, okAnswers_add] at ha
    rw [sendPages, sendPage_true hidle ha, Run.andThen_ret, if_pos rfl]
    by_cases hlast : pages = []
    · subst hlast
      simp [sendPages, okAnswers]
    · rw [ih hlast (by exact hidle) rfl, State.sent_sent]
      rfl

/-- A flush whose answers are all true sends all its events, and leaves a transfer in flight in burst mode (R176, R179). -/
theorem flush_true (hidle : s.burstBusy = false) (ha : s.answers = okAnswers (flushDraws s.cfg) rest) :
    flush s = .ret okResp ((s.sent .data (flushEvents s.cfg s.fb) rest).setBusy s.cfg.burstMode) := by
  cases hm : s.cfg.burstMode with
  | false =>
    rw [flushDraws, hm] at ha
    have hsync : flushEvents s.cfg s.fb = (List.range displayPages).flatMap (pageEvents s.cfg s.fb) := by
      rw [← goodTransfers_pages, flushEvents, hm]
      rfl
    have hpages := sendPages_true (pages := List.range displayPages) (by decide) hidle ha
    rw [flush, hm, if_neg (by decide), flushSync, hpages, hsync, ← hidle]
    rfl
  | true =>
    rw [flushDraws, hm] at ha
    rw [flush, hm, if_pos rfl, flushBurst, sendData_true hidle ha, Run.andThen_ret, if_pos rfl, flushEvents, hm]
    rfl

end

/-! ## WRITE -/

theorem getLsbD_fillByte (c : Color) {k : Nat} (hk : k < 8) : (fillByte c).getLsbD k = isWhite c := by
  cases c with
  | white => exact (BitVec.getLsbD_allOnes (v := 8)).trans (decide_eq_true hk)
  | black => exact BitVec.getLsbD_zero

theorem pixel_filled {m : Memory} (hm : m.wf fbBytes = true) (c : Color) {X Y : Nat} (hX : X < 128) (hY : Y < 64) :
    (filled (fillByte c) m).pixel X Y = isWhite c := by
  rw [Memory.pixel, read_filled _ hm (pixelByte_lt hX hY), getLsbD_fillByte c (pixelBit_lt Y)]

/-- The picture of a text at a pixel depends on the background at that pixel alone. -/
theorem linePainted_congr (s : State) (f : Font) (c : Color) (p : Bool) (cx cy : Nat) {bg bg' : Nat → Nat → Bool} (n : Nat)
    {X Y : Nat} (h : bg X Y = bg' X Y) : linePainted s f c p cx cy bg n X Y = linePainted s f c p cx cy bg' n X Y := by
  simp only [linePainted, h]

/-- Settles O37: the fill gives the background, the text is painted over it from the new cursor, and the flush sends what
was painted. -/
theorem writePaintsTheTextOverTheBackground : Obligations.WritePaintsTheTextOverTheBackground := by
  intro f x y b c p u rest s hidle hwf hx hy hfits hanswers
  have hbg := fun X Y => pixel_filled hwf b (X := X) (Y := Y)
  have hfill := filled_wf (fillByte b) hwf
  have hmove : moveCursor x y (s.setFb (filled (fillByte b) s.fb)) =
      .ret okResp ((s.setFb (filled (fillByte b) s.fb)).setCursor x y) := if_pos ⟨hx, hy⟩
  rw [exec_eq_completed, course, fbFill_idle _ hidle, Run.andThen_ret, hmove, Run.andThen_ret, if_neg (by decide)]
  generalize filled (fillByte b) s.fb = background at hbg hfill
  obtain ⟨m, cx, htext, hm, hcx, hpixel⟩ :=
    rasterText_paints (s := (s.setFb background).setCursor x y) hidle hfill hfits c le_rfl
  rw [textChars, htext, Run.andThen_ret, if_neg (by decide)]
  have hpicture : ∀ X Y, X < 128 → Y < 64 →
      m.pixel X Y = textPainted s f c p x.toNat y.toNat (fun _ _ => isWhite b) X Y := fun X Y hX hY =>
    (hpixel X Y hX hY).trans (linePainted_congr (bg' := fun _ _ => isWhite b) _ f c p _ _ _ (hbg X Y hX hY))
  cases u with
  | false =>
    refine ⟨_, completed_ret _ _, ?_, hm, hcx, hpicture⟩
    simp [State.setResp, State.setCx, State.setFb, State.setCursor, okResp, hidle]
  | true =>
    have hflush := flush_true (s := (((s.setFb background).setCursor x y).setFb m).setCx cx) hidle (hanswers rfl)
    rw [if_pos rfl, hflush]
    exact ⟨_, completed_ret _ _, rfl, hm, hcx, hpicture⟩

end Sys2Proof.Machine
end

section
/-! # The engine's turns (R190, R191) -/

namespace Sys2Proof.Machine

/-! ## Turns without a command -/

section
variable {s : State}

theorem engineTurn_idle (hidle : s.burstBusy = false) : engineTurn s = s := by
  simp [engineTurn, hidle]

theorem engineTurn_busy (hbusy : s.burstBusy = true) : engineTurn s = burstComplete s := by
  simp [engineTurn, hbusy]

theorem idleTurn_idle (hidle : s.burstBusy = false) : idleTurn s = s := by
  simp [idleTurn, hidle]

theorem idleTurn_fair (hbusy : s.burstBusy = true) (hfair : s.cfg.burstFailAdmitted = false) :
    idleTurn s = burstComplete s := by
  simp [idleTurn, hbusy, hfair]

/-- Where the strap lets the engine hang, the free value decides (R191, log 3). -/
theorem idleTurn_unfair (hbusy : s.burstBusy = true) (hunfair : s.cfg.burstFailAdmitted = true) :
    idleTurn s = if Config.engineCompletes s.engineTurns then burstComplete { s with engineTurns := s.engineTurns + 1 }
      else { s with engineTurns := s.engineTurns + 1 } := by
  simp [idleTurn, hbusy, hunfair]

theorem idleTurn_fair_burstBusy (hfair : s.cfg.burstFailAdmitted = false) : (idleTurn s).burstBusy = false := by
  cases hb : s.burstBusy with
  | false => rw [idleTurn_idle hb, hb]
  | true =>
    rw [idleTurn_fair hb hfair]
    rfl

end

/-- Settles O11: the turn of the engine and the idle turn, each with and without a transfer in flight. -/
theorem engineCompletesTheTransfer : Obligations.EngineCompletesTheTransfer := by
  refine fun s hf => ⟨fun rest hi => ?_, fun hi => ?_⟩
  · rw [step_engine hi hf]
    refine ⟨fun hbusy => ?_, fun hidle => ?_⟩
    · rw [engineTurn_busy (by exact hbusy)]
      rfl
    · rw [engineTurn_idle (by exact hidle)]
      rfl
  · rw [step_idle hi hf]
    refine ⟨fun hidle => ?_, fun hbusy hfair => ?_, fun hbusy hunfair => ?_⟩
    · rw [idleTurn_idle hidle]
    · rw [idleTurn_fair hbusy hfair]
      rfl
    · rw [idleTurn_unfair hbusy hunfair]
      split
      case isTrue => exact .inl rfl
      case isFalse => exact .inr rfl

/-! ## Fairness -/

theorem core_run_succ {s t : State} (h : step s = .next t) (k : Nat) : core.run (k + 1) s = core.run k t := by
  have hstep : core.step s = .next t := h
  simp only [Host.Core.run, hstep]

/-- A block that is not faulted takes every action. -/
theorem step_next {s : State} (hf : s.fault = none) : ∃ t, step s = .next t := by
  cases hi : s.inputs with
  | nil => exact ⟨_, step_idle hi hf⟩
  | cons a rest =>
    cases a with
    | engine => exact ⟨_, step_engine hi hf⟩
    | reset => exact ⟨_, step_reset hi⟩
    | command w =>
      rw [step_command hi hf, runWord]
      split
      case h_1 i _ => exact exec_next i _
      case h_2 => exact ⟨_, rfl⟩

/-- Settles O12, by induction on the actions: each step takes one off the list and keeps the strap, and when none is left
the engine completes. -/
theorem fairEngineLeavesNoBurstForever : Obligations.FairEngineLeavesNoBurstForever := by
  intro s hfair hf
  obtain ⟨l, hl⟩ : ∃ l, s.inputs = l := ⟨_, rfl⟩
  induction l generalizing s with
  | nil =>
    refine ⟨1, by omega, idleTurn s, ?_, .inl (idleTurn_fair_burstBusy hfair)⟩
    rw [core_run_succ (step_idle hl hf)]
    rfl
  | cons a rest ih =>
    obtain ⟨t, ht⟩ := step_next hf
    obtain ⟨hinputs, hcfg, -⟩ := stepTakesOneActionAndKeepsTheParameters s t ht
    rw [hl, List.tail_cons] at hinputs
    by_cases hft : t.fault = none
    · obtain ⟨k, hk, u, hu, hend⟩ := ih t (hcfg ▸ hfair) hft hinputs
      refine ⟨k + 1, ?_, u, (core_run_succ ht k).trans hu, hend⟩
      rw [hl, List.length_cons, ← hinputs]
      omega
    · exact ⟨1, by omega, t, core_run_succ ht 0, .inr hft⟩

end Sys2Proof.Machine
end

section
/-! # The flags and the status word: IRQ_ACK and STATUS_READ (R183, R184, R219) -/

namespace Sys2Proof.Machine

/-- Settles O43: IRQ_ACK writes both flags and RESP, and the line is the flags' disjunction. -/
theorem irqAckClearsBothFlags : Obligations.IrqAckClearsBothFlags :=
  fun _ => ⟨_, rfl, rfl, rfl⟩

theorem getLsbD_statusWord_irqf0 (s : State) : (statusWord s).getLsbD 9 = s.irqf0 := by
  simp [statusWord]

theorem getLsbD_statusWord_irqf1 (s : State) : (statusWord s).getLsbD 10 = s.irqf1 := by
  simp [statusWord]

theorem getLsbD_statusWord_burstBusy (s : State) : (statusWord s).getLsbD 11 = s.burstBusy := by
  simp [statusWord]

theorem extractLsb'_statusWord_tlen (s : State) : (statusWord s).extractLsb' 0 9 = s.tlen := by
  refine BitVec.eq_of_getLsbD_eq fun k hk => ?_
  have h10 : k < 10 := by omega
  have h11 : k < 11 := by omega
  have h16 : k < 16 := by omega
  simp [statusWord, hk, h10, h11, h16]

theorem extractLsb'_statusWord_high (s : State) : (statusWord s).extractLsb' 12 4 = 0#4 := by
  refine BitVec.eq_of_getLsbD_eq fun k hk => ?_
  have hbusy : 12 + k - 11 ≠ 0 := by omega
  have hirqf1 : 12 + k - 10 ≠ 0 := by omega
  have hirqf0 : 12 + k - 9 ≠ 0 := by omega
  have htlen : s.tlen.getLsbD (12 + k) = false := BitVec.getLsbD_of_ge _ _ (by omega)
  simp [statusWord, hbusy, hirqf1, hirqf0, htlen]

/-- Settles O44: each field of the status word is the register of its bits. -/
theorem statusReadAnswersTheStatusWord : Obligations.StatusReadAnswersTheStatusWord :=
  fun s => ⟨_, rfl, rfl, extractLsb'_statusWord_tlen s, getLsbD_statusWord_irqf0 s, getLsbD_statusWord_irqf1 s,
    getLsbD_statusWord_burstBusy s, extractLsb'_statusWord_high s⟩

end Sys2Proof.Machine
end

section
/-! # The poll budget (R174) -/

namespace Sys2Proof.Machine

open Sys2Proof.Claims

/-- O53's disguise: another poll budget. -/
def otherBudget (n : Nat) : Disguise := ⟨id, id, fun _ => n⟩

theorem disguise_otherBudget (s : State) (n : Nat) : s.disguise (otherBudget n) = withBudget n s := rfl

/-- Settles O53: every command is blind to the poll budget. -/
theorem pollBudgetIsUnobservable : Obligations.PollBudgetIsUnobservable := by
  intro i s t n h
  rw [← disguise_otherBudget, ← disguise_otherBudget]
  exact exec_disguise rfl (.inr rfl) rfl h

end Sys2Proof.Machine
end

section
/-! # Commands while a transfer is in flight (R192, R245, R246) -/

namespace Sys2Proof.Machine

open Sys2Proof.Claims

theorem exec_flush_busy {s : State} (hbusy : s.burstBusy = true) :
    exec .flush s = .next (s.raise .transferDuringBurst) := by
  rw [exec_eq_completed, course, flush_busy hbusy, completed_raised]

theorem exec_init_busy {s : State} (hbusy : s.burstBusy = true) :
    exec .init s = .next (s.raise .transferDuringBurst) := by
  rw [exec_eq_completed, course, if_pos hbusy, completed_raised]

/-- The commands that R246 leaves to the host neither write the framebuffer nor reach the transport. -/
theorem writesFb_transfers_of_free {i : Instr} (hi : freeDuringBurst i = true) :
    writesFb i = false ∧ transfers i = false := by
  cases i with
  | drawPixel | fill | writeChar | writeString | write | flush | init => cases hi
  | _ => exact ⟨rfl, rfl⟩

/-- They answer in every state: none of them raises a fault. -/
theorem course_of_free {i : Instr} (hi : freeDuringBurst i = true) (s : State) : ∃ r t, course i s = .ret r t := by
  cases i with
  | drawPixel | fill | writeChar | writeString | write | flush | init => cases hi
  | setCursor x y =>
    obtain ⟨-, -, he⟩ | ⟨-, he⟩ := moveCursor_cases x y s
    · exact ⟨_, _, he⟩
    · exact ⟨_, _, he⟩
  | textPush ch =>
    rw [course]
    split
    case isTrue => exact ⟨_, _, rfl⟩
    case isFalse => exact ⟨_, _, rfl⟩
  | _ => exact ⟨_, _, rfl⟩

theorem exec_fault_of_free {i : Instr} {s t : State} (hi : freeDuringBurst i = true) (h : exec i s = .next t) :
    t.fault = s.fault := by
  obtain ⟨r, u, hu⟩ := course_of_free hi s
  rw [exec_eq_completed, hu] at h
  cases h
  exact (fault_resp_of_course_ret hu).1

/-- Settles O46: the transfers and INIT look at BURST_BUSY first, and the commands left to the host touch neither the
framebuffer nor the transport. -/
theorem transferDuringBurstFaults : Obligations.TransferDuringBurstFaults := by
  intro s hbusy
  refine ⟨fun b => ?_, fun off len => ?_, exec_flush_busy hbusy, exec_init_busy hbusy, exec_write_busy hbusy,
    fun i hi => ?_⟩
  · rw [sendCmd_busy b hbusy]
    rfl
  · rw [sendData_busy off len hbusy]
    rfl
  · obtain ⟨t, ht⟩ := exec_next i s
    obtain ⟨hfb, htransfers⟩ := writesFb_transfers_of_free hi
    obtain ⟨hkeepFb, -⟩ := commandsWriteOnlyTheirRegisters i s t ht
    obtain ⟨-, -, hkeep⟩ := onlyTransfersReachTheTransport i s t ht
    obtain ⟨htrace, -, -, -, -, hburst⟩ := hkeep htransfers
    exact ⟨t, ht, hburst.trans hbusy, exec_fault_of_free hi ht, htrace, hkeepFb hfb⟩

end Sys2Proof.Machine
end

section
/-! # FLUSH (R171 to R179)

The transfers of a page-addressed flush are numbered through: transfer `4 * n + j` is the `j`-th of page `n`. -/

namespace Sys2Proof.Machine

open Sys2Proof.Claims

/-! ## Transfers and their events -/

/-- The events of `k` transfers from the `m`-th on answered true, and of the next one answered false (R177). -/
def transfersUntil (cfg : Config) (fb : Memory) (m k : Nat) : List Event :=
  ((List.range' m k).flatMap fun i => transferEvents cfg fb i true) ++ transferEvents cfg fb (m + k) false

/-- The mode the `k`-th transfer drives the line to (R171). -/
def transferMode (k : Nat) : LineMode := if k % 4 = 3 then .data else .cmd

section
variable (cfg : Config) (fb : Memory) (n k : Nat) (ok : Bool)

theorem dcLevel_transferMode : dcLevel cfg (transferMode k) = transferLevel cfg k := by
  unfold transferMode transferLevel
  split <;> rfl

@[simp] theorem transferEvents_pageSelect :
    transferEvents cfg fb (4 * n) ok = [.dc .cmd, .cmd (pageSelect cfg n) ok] := by
  simp [transferEvents, pageSelect]

@[simp] theorem transferEvents_colLow :
    transferEvents cfg fb (4 * n + 1) ok = [.dc .cmd, .cmd cfg.cmdColLow ok] := by
  simp [transferEvents]

@[simp] theorem transferEvents_colHigh :
    transferEvents cfg fb (4 * n + 2) ok = [.dc .cmd, .cmd cfg.cmdColHigh ok] := by
  simp [transferEvents]

@[simp] theorem transferEvents_data :
    transferEvents cfg fb (4 * n + 3) ok =
      [.dc .data, .data (n * displayWidth) displayWidth (fb.slice (n * displayWidth) displayWidth) ok] := by
  have hdiv : (4 * n + 3) / 4 = n := by omega
  simp [transferEvents, hdiv, Nat.mul_comm 128 n]

theorem transfersUntil_zero : transfersUntil cfg fb n 0 = transferEvents cfg fb n false := rfl

theorem transfersUntil_succ :
    transfersUntil cfg fb n (k + 1) = transferEvents cfg fb n true ++ transfersUntil cfg fb (n + 1) k := by
  simp [transfersUntil, List.range'_succ, Nat.add_assoc, Nat.add_comm 1 k]

/-- The four transfers of a page, and those after it. -/
theorem transfersUntil_page :
    transfersUntil cfg fb (4 * n) (k + 4) = pageEvents cfg fb n ++ transfersUntil cfg fb (4 * (n + 1)) k := by
  simp [transfersUntil_succ, pageEvents, Nat.mul_succ]

theorem transfersUntil_eq_goodTransfers :
    transfersUntil cfg fb 0 k = goodTransfers cfg fb k ++ transferEvents cfg fb k false := by
  rw [transfersUntil, goodTransfers, List.range_eq_range', Nat.zero_add]

theorem length_transferEvents : (transferEvents cfg fb k ok).length = 2 := by
  unfold transferEvents
  split <;> rfl

theorem length_goodTransfers : (goodTransfers cfg fb n).length = 2 * n := by
  induction n with
  | zero => rfl
  | succ n ih => rw [goodTransfers_succ, List.length_append, ih, length_transferEvents, Nat.mul_succ]

theorem transferStatus_ne_ok : transferStatus k ≠ .ok := by
  unfold transferStatus
  split <;> decide

end

/-! ## Transfers and their answers -/

@[simp] theorem State.sent_cfg (s : State) (m : LineMode) (events : List Event) (rest : List Bool) :
    (s.sent m events rest).cfg = s.cfg := rfl

@[simp] theorem State.sent_fb (s : State) (m : LineMode) (events : List Event) (rest : List Bool) :
    (s.sent m events rest).fb = s.fb := rfl

section
variable {s : State} {a : Bool} {rest : List Bool} (hidle : s.burstBusy = false)
include hidle

theorem sendCmd_answered (ha : s.answers = a :: rest) (b : Byte) :
    sendCmd b s = .ret a (s.sent .cmd [.dc .cmd, .cmd b a] rest) := by
  rw [sendCmd_idle b hidle]
  simp [transferred, drawAnswer, ha, State.sent]

theorem sendData_answered (ha : s.answers = a :: rest) (off len : Nat) :
    sendData off len s = .ret a (s.sent .data [.dc .data, .data off len (s.fb.slice off len) a] rest) := by
  rw [sendData_idle off len hidle]
  simp [transferred, drawAnswer, ha, State.sent]

theorem sendCmd_sent_answered (m : LineMode) (events : List Event) (b : Byte) :
    sendCmd b (s.sent m events (a :: rest)) = .ret a (s.sent .cmd (events ++ [.dc .cmd, .cmd b a]) rest) := by
  rw [sendCmd_answered (by exact hidle) rfl, State.sent_sent]

theorem sendData_sent_answered (m : LineMode) (events : List Event) (off len : Nat) :
    sendData off len (s.sent m events (a :: rest)) =
      .ret a (s.sent .data (events ++ [.dc .data, .data off len (s.fb.slice off len) a]) rest) := by
  rw [sendData_answered (by exact hidle) rfl, State.sent_sent, State.sent_fb]

/-! ## A page-addressed flush that fails -/

/-- A page whose transfer `j` is the first answered false (R176). -/
theorem sendPage_false {j : Nat} (hj : j < 4) (ha : s.answers = okAnswers j (false :: rest)) (n : Nat) :
    sendPage n s = .ret (transferStatus j) (s.sent (transferMode j) (transfersUntil s.cfg s.fb (4 * n) j) rest) := by
  match j with
  | 0 =>
    rw [sendPage, sendCmd_answered hidle ha]
    simp [transfersUntil_zero, transferStatus, transferMode]
  | 1 =>
    rw [sendPage, sendCmd_answered hidle (rest := false :: rest) ha]
    simp [sendCmd_sent_answered hidle, transfersUntil_succ, transfersUntil_zero, transferStatus, transferMode]
  | 2 =>
    rw [sendPage, sendCmd_answered hidle (rest := true :: false :: rest) ha]
    simp [sendCmd_sent_answered hidle, transfersUntil_succ, transfersUntil_zero, transferStatus, transferMode]
  | 3 =>
    rw [sendPage, sendCmd_answered hidle (rest := true :: true :: false :: rest) ha]
    simp [sendCmd_sent_answered hidle, sendData_sent_answered hidle, transfersUntil_succ, transfersUntil_zero,
      transferStatus, transferMode]

end

/-- A run of `m` pages whose transfer `k` is the first answered false, by induction on the pages: the failing transfer is
one of the first page's, or one of the pages after it (R176, R177). -/
theorem sendPages_false (m n : Nat) {k : Nat} (hk : k < 4 * m) {s : State} {rest : List Bool} (hidle : s.burstBusy = false)
    (ha : s.answers = okAnswers k (false :: rest)) :
    sendPages (List.range' n m) s =
      .ret (failResp (transferStatus k)) (s.sent (transferMode k) (transfersUntil s.cfg s.fb (4 * n) k) rest) := by
  induction m generalizing n k s with
  | zero => omega
  | succ m ih =>
    rw [List.range'_succ, sendPages]
    by_cases hfirst : k < 4
    · rw [sendPage_false hidle hfirst ha, Run.andThen_ret, if_neg (transferStatus_ne_ok k)]
    · obtain ⟨j, rfl⟩ : ∃ j, k = j + 4 := ⟨k - 4, by omega⟩
      rw [Nat.add_comm, okAnswers_add] at ha
      rw [sendPage_true hidle ha, Run.andThen_ret, if_pos rfl, ih (n + 1) (by omega) (by exact hidle) rfl, State.sent_sent,
        transfersUntil_page]
      simp [transferStatus, transferMode]

section
variable {s : State} {rest : List Bool} (hidle : s.burstBusy = false)
include hidle

/-- A page-addressed flush whose transfer `k` is the first answered false (R176, R177). -/
theorem flush_sync_false (hmode : s.cfg.burstMode = false) {k : Nat} (hk : k < 32)
    (ha : s.answers = okAnswers k (false :: rest)) :
    flush s = .ret (failResp (transferStatus k))
      (s.sent (transferMode k) (goodTransfers s.cfg s.fb k ++ transferEvents s.cfg s.fb k false) rest) := by
  rw [flush, hmode, if_neg (by decide), flushSync, List.range_eq_range', sendPages_false displayPages 0 hk hidle ha,
    transfersUntil_eq_goodTransfers]

/-- A flush in burst mode is one transfer, in flight afterwards when it was answered true (R179). -/
theorem flush_burst (hmode : s.cfg.burstMode = true) {a : Bool} (ha : s.answers = a :: rest) :
    flush s = .ret (if a then okResp else failResp .dataTransmitError)
      ((s.sent .data (burstEvents s.fb a) rest).setBusy a) := by
  rw [flush, hmode, if_pos rfl, flushBurst, sendData_answered hidle ha, Run.andThen_ret]
  cases a with
  | true => rfl
  | false =>
    rw [if_neg (by decide), if_neg (by decide), ← hidle]
    rfl

end

/-- Settles O38: the first answer that is false ends the pages at its transfer, and without one all 32 are sent. -/
theorem flushFollowsThePageProtocol : Obligations.FlushFollowsThePageProtocol := by
  refine fun s rest hidle hmode => ⟨fun ha => ⟨?_, length_goodTransfers s.cfg s.fb 32⟩, fun k hk ha => ?_⟩
  · have hdraws : flushDraws s.cfg = 32 := by simp [flushDraws, hmode]
    rw [exec_eq_completed, course, flush_true hidle (hdraws ▸ ha), completed_ret, hmode, ← hidle, flushEvents, hmode]
    rfl
  · rw [exec_eq_completed, course, flush_sync_false hidle hmode hk ha, completed_ret, State.sent, dcLevel_transferMode,
      ← List.append_assoc]
    rfl

/-- Settles O39: the flush is one transfer of the whole framebuffer. -/
theorem burstFlushStartsOneTransfer : Obligations.BurstFlushStartsOneTransfer := by
  intro s a rest hidle hmode ha
  rw [exec_eq_completed, course, flush_burst hidle hmode ha, completed_ret]
  cases a <;> rfl

end Sys2Proof.Machine
end

section
/-! # INIT (R180 to R182) -/

namespace Sys2Proof.Machine

open Sys2Proof.Claims

/-! ## The reset pulse and the script -/

/-- The state after the reset pulse. -/
def State.pulsed (s : State) : State :=
  { s with rst := pulseLevel s.cfg s.rst, trace := s.trace ++ pulseEvents s.cfg }

theorem resetPulse_eq (s : State) : resetPulse s = s.pulsed := by
  cases hp : s.cfg.initResetPulse <;>
    simp [resetPulse, State.pulsed, pulseLevel, pulseEvents, hp, State.driveRst, State.emit]

theorem initScript_eq (cfg : Config) : initScript cfg = script cfg := rfl

/-- The state after a script whose answers are all true; an empty script does not drive the line (R172). -/
def State.scripted (s : State) (l : List Byte) (rest : List Bool) : State :=
  { s with
    dc := if l = [] then s.dc else s.cfg.dcLevelCmd
    trace := s.trace ++ scriptEvents l
    answers := rest }

@[simp] theorem State.sent_scripted (s : State) (b : Byte) (l : List Byte) (rest rest' : List Bool) :
    (s.sent .cmd [.dc .cmd, .cmd b true] rest).scripted l rest' = s.scripted (b :: l) rest' := by
  simp [State.sent, State.scripted, scriptEvents, dcLevel]

theorem scriptEvents_cons (b : Byte) (l : List Byte) : scriptEvents (b :: l) = [.dc .cmd, .cmd b true] ++ scriptEvents l :=
  rfl

theorem okAnswers_succ (n : Nat) (rest : List Bool) : okAnswers (n + 1) rest = true :: okAnswers n rest := rfl

section
variable {s : State} {rest : List Bool}

theorem sendScript_true {l : List Byte} (hidle : s.burstBusy = false) (ha : s.answers = okAnswers l.length rest) :
    sendScript l s = .ret true (s.scripted l rest) := by
  induction l generalizing s with
  | nil =>
    have hrest : s.answers = rest := ha
    simp [sendScript, State.scripted, scriptEvents, ← hrest]
  | cons b l ih =>
    rw [List.length_cons, okAnswers_succ] at ha
    rw [sendScript, sendCmd_true hidle ha, Run.andThen_ret, if_pos rfl, ih (by exact hidle) rfl, State.sent_scripted]

/-- A script stops at the first byte that is answered false (R180). -/
theorem sendScript_false {l : List Byte} (hidle : s.burstBusy = false)
    (ha : s.answers = okAnswers l.length (false :: rest)) (b : Byte) (l' : List Byte) :
    sendScript (l ++ b :: l') s = .ret false (s.sent .cmd (scriptEvents l ++ [.dc .cmd, .cmd b false]) rest) := by
  induction l generalizing s with
  | nil =>
    rw [List.nil_append, sendScript, sendCmd_answered hidle ha]
    rfl
  | cons a l ih =>
    rw [List.length_cons, okAnswers_succ] at ha
    rw [List.cons_append, sendScript, sendCmd_true hidle ha, Run.andThen_ret, if_pos rfl, ih (by exact hidle) rfl,
      State.sent_sent, scriptEvents_cons, List.append_assoc]

/-! ## The clear and the flush -/

/-- A fill with 0x00 leaves no cell. -/
theorem filled_zero {m : Memory} (hm : m.wf fbBytes = true) : filled 0x00#8 m = [] :=
  Memory.ext_of_wf (filled_wf _ hm) rfl fun _ ha => read_filled _ hm ha

/-- The state in which INIT starts its flush: the pulse and the script sent, and the framebuffer cleared. -/
def State.prepared (s : State) (rest : List Bool) : State :=
  (s.pulsed.scripted (script s.cfg) rest).setFb []

@[simp] theorem State.prepared_cfg (s : State) (rest : List Bool) : (s.prepared rest).cfg = s.cfg := rfl

@[simp] theorem State.prepared_fb (s : State) (rest : List Bool) : (s.prepared rest).fb = [] := rfl

/-- The flush's first transfer drives the line, so the level that the script left does not show. -/
theorem State.prepared_sent (s : State) (m : LineMode) (events : List Event) (rest rest' : List Bool) :
    (s.prepared rest).sent m events rest' = (s.pulsed.setFb []).sent m (scriptEvents (script s.cfg) ++ events) rest' := by
  simp [State.sent, State.prepared, State.scripted, State.setFb, List.append_assoc]

/-- An INIT whose script is answered true ends as its flush does, with the cursor home when that succeeds (R180). -/
theorem exec_init_of_script {r : Resp} {t : State} (hidle : s.burstBusy = false) (hwf : s.fb.wf fbBytes = true)
    (ha : s.answers = okAnswers (script s.cfg).length rest) (hflush : flush (s.prepared rest) = .ret r t) :
    (r.status = .ok → exec .init s = .next ((t.setCursor 0#8 0#8).setResp okResp)) ∧
    (r.status ≠ .ok → exec .init s = .next (t.setResp (failResp r.status))) := by
  have hscript : sendScript (script s.cfg) s.pulsed = .ret true (s.pulsed.scripted (script s.cfg) rest) :=
    sendScript_true hidle ha
  have hfill : fbFill 0x00#8 (s.pulsed.scripted (script s.cfg) rest) = .ret () (s.prepared rest) := by
    rw [fbFill_idle 0x00#8 (by exact hidle), State.prepared, filled_zero (by exact hwf)]
  rw [exec_eq_completed, course, if_neg (by simp [hidle]), resetPulse_eq, initScript_eq, hscript, Run.andThen_ret,
    if_neg (by decide), hfill, Run.andThen_ret, hflush, Run.andThen_ret]
  exact ⟨fun hok => by simp [hok], fun hfail => by simp [hfail]⟩

end

/-- Settles O40: the pulse, the script, the clear and the flush of the cleared framebuffer, one after another. -/
theorem initRunsTheWholeSequence : Obligations.InitRunsTheWholeSequence := by
  intro s rest hidle hwf ha
  rw [okAnswers_add] at ha
  have hflush := flush_true (s := s.prepared (okAnswers (flushDraws s.cfg) rest)) hidle rfl
  rw [State.prepared_sent, State.prepared_cfg, State.prepared_fb] at hflush
  obtain ⟨hhome, -⟩ := exec_init_of_script hidle hwf ha hflush
  rw [hhome rfl]
  simp [State.setResp, State.setCursor, State.setBusy, State.sent, State.setFb, State.pulsed, okResp, dcLevel]

/-- Settles O41: the script stops at byte `b`, before the clear. -/
theorem initStopsAtAFailingScriptByte : Obligations.InitStopsAtAFailingScriptByte := by
  intro s l l' b rest hidle hscript ha
  rw [exec_eq_completed, course, if_neg (by simp [hidle]), resetPulse_eq, initScript_eq, hscript,
    sendScript_false (s := s.pulsed) hidle ha, Run.andThen_ret, Bool.not_false, if_pos rfl, completed_ret]
  simp [State.setResp, State.sent, State.pulsed, failResp, dcLevel]

/-- Settles O42: the flush comes after the clear and before the cursor goes home. -/
theorem initStopsAtAFailingFlush : Obligations.InitStopsAtAFailingFlush := by
  refine fun s rest hidle hwf => ⟨fun hmode k hk ha => ?_, fun hmode ha => ?_⟩
  · rw [okAnswers_add] at ha
    have hflush := flush_sync_false (s := s.prepared (okAnswers k (false :: rest))) hidle hmode hk rfl
    rw [State.prepared_sent, State.prepared_cfg, State.prepared_fb] at hflush
    obtain ⟨-, hstop⟩ := exec_init_of_script hidle hwf ha hflush
    rw [hstop (transferStatus_ne_ok k)]
    simp [State.setResp, State.sent, State.setFb, State.pulsed, failResp, dcLevel_transferMode]
  · have hflush := flush_burst (s := s.prepared (false :: rest)) hidle hmode rfl
    rw [State.prepared_sent, State.prepared_fb] at hflush
    obtain ⟨-, hstop⟩ := exec_init_of_script hidle hwf ha hflush
    rw [hstop (by decide)]
    simp [State.setResp, State.setBusy, State.sent, State.setFb, State.pulsed, failResp, dcLevel, hidle]

end Sys2Proof.Machine
end

section
/-! # Faults (R215, R216, R240) -/

namespace Sys2Proof.Machine

open Sys2Proof.Safety

/-! ## No fault without a transfer in flight -/

/-- The operation ends with a value, not with a fault. -/
def Run.Ends {α : Type} (r : Run α) : Prop := ∃ a t, r = .ret a t

/-- It ends with a value and leaves no transfer in flight, so another operation may follow. -/
def Run.EndsIdle {α : Type} (r : Run α) : Prop := ∃ a t, r = .ret a t ∧ t.burstBusy = false

theorem Run.Ends.ret {α : Type} (a : α) (s : State) : (Run.ret a s).Ends := ⟨a, s, rfl⟩

theorem Run.EndsIdle.ends {α : Type} {r : Run α} (h : r.EndsIdle) : r.Ends := by
  obtain ⟨a, t, he, -⟩ := h
  exact ⟨a, t, he⟩

theorem Run.Ends.ite {α : Type} {p : Prop} [Decidable p] {r q : Run α} (hr : r.Ends) (hq : q.Ends) :
    (if p then r else q).Ends := by
  split
  · exact hr
  · exact hq

theorem Run.EndsIdle.andThen {α β : Type} {r : Run α} {k : α → State → Run β} (hr : r.EndsIdle)
    (hk : ∀ a t, t.burstBusy = false → (k a t).Ends) : (r.andThen k).Ends := by
  obtain ⟨a, t, rfl, hidle⟩ := hr
  exact hk a t hidle

section
variable {s : State} (hidle : s.burstBusy = false)
include hidle

theorem putPixel_endsIdle (x y : Nat) (c : Color) : (putPixel x y c s).EndsIdle := by
  obtain ⟨ok, m, he, -⟩ := putPixel_idle x y c hidle
  exact ⟨ok, _, he, hidle⟩

theorem fbFill_endsIdle (v : Byte) : (fbFill v s).EndsIdle :=
  ⟨(), _, fbFill_idle v hidle, (s.setFb_burstBusy _).trans hidle⟩

theorem moveCursor_endsIdle (x y : Byte) : (moveCursor x y s).EndsIdle := by
  obtain ⟨-, -, he⟩ | ⟨-, he⟩ := moveCursor_cases x y s
  · exact ⟨_, _, he, hidle⟩
  · exact ⟨_, _, he, hidle⟩

theorem rasterChar_endsIdle (ch : Byte) (f : Font) (c : Color) (p : Bool) : (rasterChar ch f c p s).EndsIdle := by
  obtain ⟨r, m, x, he, -⟩ := rasterChar_idle ch f c p hidle
  exact ⟨r, _, he, hidle⟩

theorem rasterText_endsIdle (f : Font) (c : Color) (p : Bool) (text : List Byte) :
    (rasterText f c p text s).EndsIdle := by
  obtain ⟨r, m, x, he, -⟩ := rasterText_idle f c p text hidle
  exact ⟨r, _, he, hidle⟩

theorem sendScript_endsIdle (script : List Byte) : (sendScript script s).EndsIdle := by
  obtain ⟨ok, t, he, hsent⟩ := sendScript_idle script hidle
  exact ⟨ok, t, he, hsent.burstBusy.trans hidle⟩

theorem flush_ends : (flush s).Ends := by
  obtain ⟨r, t, he, -⟩ := flush_idle hidle
  exact ⟨r, t, he⟩

/-- WRITE's flush, which may start a transfer, is its last operation (R155). -/
theorem course_write_ends (f : Font) (x y : Byte) (b c : Color) (p u : Bool) :
    (course (.write f x y b c p u) s).Ends := by
  rw [course]
  refine (fbFill_endsIdle hidle _).andThen fun _ s1 h1 => (moveCursor_endsIdle h1 x y).andThen fun r s2 h2 => ?_
  exact .ite (.ret _ _) ((rasterText_endsIdle h2 f c p _).andThen fun r s3 h3 =>
    .ite (.ret _ _) (.ite (flush_ends h3) (.ret _ _)))

/-- After INIT's flush only the cursor moves (R180). -/
theorem course_init_ends : (course .init s).Ends := by
  rw [course, if_neg (by simp [hidle])]
  refine (sendScript_endsIdle ((resetPulse_burstBusy s).trans hidle) _).andThen fun ok s1 h1 => .ite (.ret _ _) ?_
  refine (fbFill_endsIdle h1 _).andThen fun _ s2 h2 => ?_
  obtain ⟨r, s3, he⟩ := flush_ends h2
  rw [he]
  exact .ite (.ret _ _) (.ret _ _)

theorem course_ends (i : Instr) : (course i s).Ends := by
  cases i with
  | drawPixel x y c => exact (putPixel_endsIdle hidle _ _ c).andThen fun ok t _ => .ret _ t
  | fill c =>
    rw [course]
    exact (fbFill_endsIdle hidle _).andThen fun _ t _ => .ret okResp t
  | writeChar ch f c p => exact (rasterChar_endsIdle hidle ch f c p).ends
  | writeString f c p => exact (rasterText_endsIdle hidle f c p _).ends
  | write f x y b c p u => exact course_write_ends hidle f x y b c p u
  | flush => exact flush_ends hidle
  | init => exact course_init_ends hidle
  | _ => exact course_of_free rfl s

theorem exec_fault_of_idle {i : Instr} {t : State} (h : exec i s = .next t) : t.fault = s.fault := by
  obtain ⟨r, u, hu⟩ := course_ends hidle i
  rw [exec_eq_completed, hu] at h
  cases h
  exact (fault_resp_of_course_ret hu).1

end

/-! ## Commands with a transfer in flight -/

/-- With a transfer in flight no event is emitted: every operation that emits one needs BURST_BUSY = 0 (R172, R173, R180). -/
theorem Update.burst_of_busy {i : Instr} {s t : State} (hbusy : s.burstBusy = true) (h : Update i s t) :
    t.burstBusy = true ∧ t.trace = s.trace := by
  cases h with
  | paint _ _ hidle | pulse _ _ hidle | send _ _ hidle => simp [hbusy] at hidle
  | startBurst => exact ⟨rfl, rfl⟩
  | column | cursor | clearText | pushText | ackIrq => exact ⟨hbusy, rfl⟩

theorem exec_burst_of_busy {i : Instr} {s t : State} (hbusy : s.burstBusy = true) (h : exec i s = .next t) :
    t.burstBusy = true ∧ t.trace = s.trace :=
  exec_preserves (P := fun u => u.burstBusy = true ∧ u.trace = s.trace)
    (fun _ _ huv ⟨hb, htrace⟩ =>
      have ⟨hb', htrace'⟩ := huv.burst_of_busy hb
      ⟨hb', htrace'.trans htrace⟩)
    (fun _ _ hu => hu) (fun _ _ _ hu => hu) h ⟨hbusy, rfl⟩

/-- A command faults an unfaulted block only with a transfer in flight. -/
theorem burstBusy_of_exec_faults {i : Instr} {s t : State} (h : exec i s = .next t) (hf : s.fault = none)
    (hfaults : t.fault ≠ none) : s.burstBusy = true := by
  by_contra hb
  exact hfaults ((exec_fault_of_idle (Bool.not_eq_true _ ▸ hb) h).trans hf)

/-- Settles O47: with BURST_BUSY = 0 the whole course of a command ends with a value, and with BURST_BUSY = 1 it emits
nothing. -/
theorem faultsNeedATransferInFlight : Obligations.FaultsNeedATransferInFlight := by
  refine fun i s t h => ⟨fun hidle => exec_fault_of_idle hidle h, fun hf hfaults => ?_⟩
  have hbusy := burstBusy_of_exec_faults h hf hfaults
  obtain ⟨htbusy, htrace⟩ := exec_burst_of_busy hbusy h
  obtain ⟨-, hresp⟩ := respIsWrittenUnlessFaulted i s t h hf
  exact ⟨hbusy, htbusy, (hresp hfaults).1, htrace⟩

/-! ## Every step -/

/-- A turn without a command leaves FAULT alone (R190). -/
theorem Turn.fault {s t : State} (h : Turn s t) : t.fault = s.fault := by
  obtain ⟨n, rfl | ⟨-, rfl⟩⟩ := h
  · rfl
  · rfl

/-- A step that leaves the block faulted either leaves a faulted block as it was, but for the action, or is a command that
has just faulted. -/
theorem step_faulted_cases {s t : State} (h : step s = .next t) (hfaulted : t.fault ≠ none) :
    (s.fault ≠ none ∧ ∃ rest, t = s.setInputs rest) ∨
    (s.fault = none ∧ ∃ rest i, exec i (s.setInputs rest) = .next t) := by
  rcases step_cases h with ⟨rest, -, rfl⟩ | ⟨hf, a, rest, -, -, rfl⟩ | ⟨hf, -, rfl⟩ | ⟨hf, rest, -, rfl⟩ |
    ⟨hf, w, rest, why, -, -, rfl⟩ | ⟨hf, w, rest, i, -, -, h⟩
  · exact absurd rfl hfaulted
  · exact .inl ⟨hf, rest, rfl⟩
  · exact absurd ((idleTurn_turn s).fault.trans hf) hfaulted
  · exact absurd ((engineTurn_turn (s.setInputs rest)).fault.trans hf) hfaulted
  · exact absurd hf hfaulted
  · exact .inr ⟨hf, rest, i, h⟩

/-- Settles O58: a block that faults has a transfer in flight by O47, one that was faulted keeps it, and a transfer in flight
implies burst mode by O57. -/
theorem stepKeepsFaultsInFlight : Obligations.StepKeepsFaultsInFlight := by
  intro s t hburst hfault h hfaulted
  have hbusy : t.burstBusy = true := by
    obtain ⟨hf, rest, rfl⟩ | ⟨hf, rest, i, hexec⟩ := step_faulted_cases h hfaulted
    · exact (hfault hf).2
    · exact (exec_burst_of_busy (burstBusy_of_exec_faults hexec hf hfaulted) hexec).1
  exact ⟨(stepKeepsTheBurstSnapshot s t hburst h hbusy).1, hbusy⟩

/-! ## A fault stays -/

/-- What a command does after a fault leaves FAULT set: no update writes it. -/
theorem exec_keeps_faulted {i : Instr} {s t : State} (h : exec i s = .next t) (hfaulted : s.fault ≠ none) :
    t.fault ≠ none :=
  exec_preserves (P := fun u => u.fault ≠ none) (fun _ _ huv hu => huv.fault_resp.1 ▸ hu) (fun _ _ hu => hu)
    (fun _ _ _ _ => by simp) h hfaulted

/-- Settles O8: a command writes FAULT only to set it, and of the actions that a faulted block takes only reset clears it. -/
theorem onlyResetClearsAFault : Obligations.OnlyResetClearsAFault := by
  refine ⟨fun _ _ _ => exec_keeps_faulted, fun s t h hfaulted => ⟨fun hclear => ?_, fun ⟨rest, hi⟩ => ?_⟩⟩
  · obtain ⟨rest, hi, -⟩ | ⟨-, a, rest, -, -, rfl⟩ | hunfaulted := step_cases h
    · exact ⟨rest, hi⟩
    · exact absurd hclear hfaulted
    · rcases hunfaulted with ⟨hf, -⟩ | ⟨hf, -⟩ | ⟨hf, -⟩ | ⟨hf, -⟩ <;> exact absurd hf hfaulted
  · rw [step_reset hi] at h
    cases h
    rfl

end Sys2Proof.Machine
end
